-- ==== Sys2Proof/Word.lean ====
section
/-!
DEFINITION. The word types of the block (spec/00_scope.md R8): `uN` is `BitVec N`, a mathematical integer with a
range is `Int` or `Nat`, `bool` is `Bool`.
-/

namespace Sys2Proof

/-- A payload byte, `u8` (R9). -/
abbrev Byte := BitVec 8

/-- A nibble, `u4` (R11). -/
abbrev Nibble := BitVec 4

/-- A 12-bit pattern, `u12` (R78). -/
abbrev U12 := BitVec 12

/-- A 16-bit unsigned quantity, `u16`. -/
abbrev U16 := BitVec 16

/-- The little-endian word of the Lights decoder, `u32` (R42). -/
abbrev U32 := BitVec 32

/-- One bit, `u1`. The record fields `killSwitch`, `throttleMap`, `requestedMap` and `buttonState` are integers of
this width, not booleans (R21, R23, R26). -/
abbrev U1 := BitVec 1

/-- The CAN identifier, `ID_W = 32` bits, unsigned (R33, R39; decision D2). -/
abbrev Id := BitVec 32

/-- The value driven on the ports of one addressed block, in the 13 whole bytes that hold the longest of them, the
100-bit frame word (R54). Bit 0 is the least significant bit, as the opcode table numbers bits. -/
abbrev PortWord := BitVec 104

/-- `v[k]`, one bit of a word (R7, R9). -/
def bitOf {n : Nat} (v : BitVec n) (k : Nat) : U1 := v.extractLsb' k 1

end Sys2Proof
end

