-- ==== Sys2Proof/Syntax.lean ====
section
/-!
DEFINITION. The inputs of one evaluation: payload, the ten messages, the two forms a message row has, the
instructions (one constructor per row of spec/opcode_table.json), the line of port values the environment presents,
and the spec's own line notation (R72).
-/

namespace Sys2Proof

/-- The eight payload lanes `P0 .. P7`; `Pi` is `b[i]` (R33). Lanes at or above `LEN` carry no payload byte and no
rule reads them (R40). -/
structure Lanes where
  p0 : Byte
  p1 : Byte
  p2 : Byte
  p3 : Byte
  p4 : Byte
  p5 : Byte
  p6 : Byte
  p7 : Byte
deriving DecidableEq, Repr

/-- The lanes in index order. -/
def Lanes.toList (b : Lanes) : List Byte := [b.p0, b.p1, b.p2, b.p3, b.p4, b.p5, b.p6, b.p7]

/-- The payload of one evaluation: its length `LEN` and its lanes (R33, R38). `len` is a plain number because the
functional view admits a list of any length; the port form holds lengths 0..15 (`WellFormed.lean`; log entry 6). -/
structure Payload where
  len : Nat
  lanes : Lanes
deriving DecidableEq, Repr

/-- The ten known messages, in the order of spec/30_encoding.md R55. -/
inductive Message where
  | engine
  | gear
  | throttle
  | wheel
  | brakes
  | traction
  | sensors
  | killsw
  | fuel
  | lights
deriving DecidableEq, Repr

/-- The two forms of a message row: selected by the identifier through the registry (`DECODE`, R98), or the decoder
sub-block used standalone (R36, R81). -/
inductive Form where
  | registry
  | standalone
deriving DecidableEq, Repr

/-- One constructor per row of spec/opcode_table.json. A message row and `UNMAPPED` carry the payload with its length:
the registry form checks the length itself (R97), so a frame word of any length has an instruction. -/
inductive Instr where
  /-- ENGINE, identifier 0x120 (R82). -/
  | engine (form : Form) (p : Payload)
  /-- GEAR, identifier 0x129 (R83). -/
  | gear (form : Form) (p : Payload)
  /-- THROTTLE, identifier 0x12A (R84). -/
  | throttle (form : Form) (p : Payload)
  /-- WHEEL, identifier 0x12B (R86). -/
  | wheel (form : Form) (p : Payload)
  /-- BRAKES, identifier 0x290 (R87). -/
  | brakes (form : Form) (p : Payload)
  /-- TRACTION, identifier 0x450 (R88). -/
  | traction (form : Form) (p : Payload)
  /-- SENSORS, identifier 0x540 (R89). -/
  | sensors (form : Form) (p : Payload)
  /-- KILLSW, identifier 0x550 (R91). -/
  | killsw (form : Form) (p : Payload)
  /-- FUEL, identifier 0x552 (R92). -/
  | fuel (form : Form) (p : Payload)
  /-- LIGHTS, identifier 0x650 (R94). -/
  | lights (form : Form) (p : Payload)
  /-- UNMAPPED: the registry on any other identifier (R99). -/
  | unmapped (id : Id) (p : Payload)
  /-- ISKNOWN (R96). -/
  | isknown (id : Id)
  /-- NAMEOF (R110). -/
  | nameof (id : Id)
  /-- LONIB (R74). -/
  | lonib (x : Byte)
  /-- HINIB (R75). -/
  | hinib (x : Byte)
  /-- BEU16 (R76). -/
  | beu16 (hi lo : Byte)
  /-- BES16 (R77). -/
  | bes16 (hi lo : Byte)
  /-- S12 (R78). -/
  | s12 (v : U12)
deriving DecidableEq, Repr

/-- The row of a message. -/
def Instr.ofMessage : Message → Form → Payload → Instr
  | .engine, f, p => .engine f p
  | .gear, f, p => .gear f p
  | .throttle, f, p => .throttle f p
  | .wheel, f, p => .wheel f p
  | .brakes, f, p => .brakes f p
  | .traction, f, p => .traction f p
  | .sensors, f, p => .sensors f p
  | .killsw, f, p => .killsw f p
  | .fuel, f, p => .fuel f p
  | .lights, f, p => .lights f p

/-- The block whose input ports a line drives: the registry (R33), a decoder sub-block (R36), a query on the
identifier (R96, R110) or a primitive (R74 to R78). It is the mnemonic of the line (R72): the words of the formats
ID32, U8 and U8PAIR of the opcode table carry no bit that tells it (DESIGN CHOICE, log entry 9). -/
inductive Block where
  | registry
  | decoder (m : Message)
  | isKnown
  | nameOf
  | loNibble
  | hiNibble
  | bigEndianU16
  | bigEndianS16
  | signed12
deriving DecidableEq, Repr

/-- One input the environment presents: the addressed block and the value on its input ports. -/
structure Line where
  block : Block
  word : PortWord
deriving DecidableEq, Repr

/-- One line of the spec's own notation (R72). The number of bytes written is `LEN`, so a line may be longer than
any port form. `DECODE` is the pseudo-instruction of R73. -/
inductive SourceLine where
  | decode (id : Id) (bytes : List Byte)
  | isknown (id : Id)
  | nameof (id : Id)
  | message (m : Message) (bytes : List Byte)
  | lonib (x : Byte)
  | hinib (x : Byte)
  | beu16 (hi lo : Byte)
  | bes16 (hi lo : Byte)
  | s12 (v : U12)
deriving DecidableEq, Repr

end Sys2Proof
end

