-- ==== Sys2Proof/Machine/IdMap.lean ====
section
/-!
DEFINITION. The identifier map and the minimum lengths (spec/30_encoding.md R55, R56), and the match on the
identifier (spec/42_dispatch.md R96).
-/

namespace Sys2Proof

/-- The ten messages in table order. -/
def Message.all : List Message :=
  [.engine, .gear, .throttle, .wheel, .brakes, .traction, .sensors, .killsw, .fuel, .lights]

/-- The identifier of a message (R55). -/
def Message.identifier : Message → Id
  | .engine => 0x120
  | .gear => 0x129
  | .throttle => 0x12A
  | .wheel => 0x12B
  | .brakes => 0x290
  | .traction => 0x450
  | .sensors => 0x540
  | .killsw => 0x550
  | .fuel => 0x552
  | .lights => 0x650

/-- The minimum payload length of a message's decoder (R56). -/
def Message.minLen : Message → Nat
  | .engine => 5
  | .gear => 1
  | .throttle => 4
  | .wheel => 8
  | .brakes => 4
  | .traction => 3
  | .sensors => 8
  | .killsw => 1
  | .fuel => 1
  | .lights => 4

/-- The message an identifier selects: equality on all 32 bits (R55, R96). -/
def messageOf (id : Id) : Option Message := Message.all.find? (fun m => m.identifier == id)

/-- `isKnownIdentifier(id)`: membership in the set R96 writes out. -/
def isKnownIdentifier (id : Id) : Bool :=
  [0x120, 0x129, 0x12A, 0x12B, 0x290, 0x450, 0x540, 0x550, 0x552, 0x650].contains id

end Sys2Proof
end

