-- ==== Sys2Proof/WellFormed.lean ====
section
/-!
DEFINITION. Which instructions have a port form (spec/10_state.md R33, spec/30_encoding.md R54, R55). Each check is a
definition of its own; `Sys2Proof/Tests/Slice0.lean` shows for each an instruction that it refuses.
-/

namespace Sys2Proof

/-- The length fits the 4-bit input `LEN`, 0..15 (R33; decision D3). A longer list has no port form. -/
def Payload.fitsPort (p : Payload) : Bool := p.len < 16

/-- `UNMAPPED` is the default row: its identifier is none of the ten (R55, R99). -/
def unmappedIdentifierOk (id : Id) : Bool := !isKnownIdentifier id

/-- The instruction has a port form. Every other operand has exactly its port's width by its type (R79). -/
def Instr.wellFormed : Instr → Bool
  | .engine _ p => p.fitsPort
  | .gear _ p => p.fitsPort
  | .throttle _ p => p.fitsPort
  | .wheel _ p => p.fitsPort
  | .brakes _ p => p.fitsPort
  | .traction _ p => p.fitsPort
  | .sensors _ p => p.fitsPort
  | .killsw _ p => p.fitsPort
  | .fuel _ p => p.fitsPort
  | .lights _ p => p.fitsPort
  | .unmapped id p => unmappedIdentifierOk id && p.fitsPort
  | .isknown _ => true
  | .nameof _ => true
  | .lonib _ => true
  | .hinib _ => true
  | .beu16 _ _ => true
  | .bes16 _ _ => true
  | .s12 _ => true

end Sys2Proof
end

