-- ==== Sys2Proof/Decode.lean ====
section
/-!
DEFINITION. From the value on a block's input ports to the instruction it is, and back (spec/30_encoding.md R54, R55,
R72; the encodings of spec/opcode_table.json). Total on every line. Field positions are those of the opcode table,
bit 0 least significant.
-/

namespace Sys2Proof

/-- Why a line has no instruction. -/
inductive DecodeReject where
  /-- The word has a bit set at or above the width of the addressed block's input ports. Each operand port has exactly
  its stated width (R33, R79), and a wider software integer is "refused by the port width" (decision D2). -/
  | strayBits (block : Block) (width : Nat)
deriving DecidableEq, Repr

/-- The width of a block's input ports: the frame word (R54), `LEN` with the lanes (R36), `ID` (R96, R110), or the
primitive's operands (R74 to R78). -/
def Block.width : Block → Nat
  | .registry => 100
  | .decoder _ => 68
  | .isKnown => 32
  | .nameOf => 32
  | .loNibble => 8
  | .hiNibble => 8
  | .bigEndianU16 => 16
  | .bigEndianS16 => 16
  | .signed12 => 12

/-- `FW[99:68]`, the identifier (R54). -/
def frameId (w : PortWord) : Id := w.extractLsb' 68 32

/-- `FW[67:64]`, `LEN`, and `FW[63:0]`, `P0` to `P7` with `P0` highest (R54). The standalone word has the same low 68
bits (R36). -/
def framePayload (w : PortWord) : Payload where
  len := (w.extractLsb' 64 4).toNat
  lanes :=
    { p0 := w.extractLsb' 56 8
      p1 := w.extractLsb' 48 8
      p2 := w.extractLsb' 40 8
      p3 := w.extractLsb' 32 8
      p4 := w.extractLsb' 24 8
      p5 := w.extractLsb' 16 8
      p6 := w.extractLsb' 8 8
      p7 := w.extractLsb' 0 8 }

/-- The row a frame word selects: the message whose identifier it carries, else the default row `UNMAPPED` (R55, R99).
The length is not looked at here: a registry row checks it first (R97). -/
def decodeFrame (id : Id) (p : Payload) : Instr :=
  match messageOf id with
  | some m => .ofMessage m .registry p
  | none => .unmapped id p

/-- The instruction on a block's ports, when the word fits them. -/
def decodeFitting : Block → PortWord → Instr
  | .registry, w => decodeFrame (frameId w) (framePayload w)
  | .decoder m, w => .ofMessage m .standalone (framePayload w)
  | .isKnown, w => .isknown (w.extractLsb' 0 32)
  | .nameOf, w => .nameof (w.extractLsb' 0 32)
  | .loNibble, w => .lonib (w.extractLsb' 0 8)
  | .hiNibble, w => .hinib (w.extractLsb' 0 8)
  | .bigEndianU16, w => .beu16 (w.extractLsb' 8 8) (w.extractLsb' 0 8)
  | .bigEndianS16, w => .bes16 (w.extractLsb' 8 8) (w.extractLsb' 0 8)
  | .signed12, w => .s12 (w.extractLsb' 0 12)

/-- The instruction a line presents, or the name of the reason it presents none. -/
def decode (l : Line) : Except DecodeReject Instr :=
  if l.word.toNat < 2 ^ l.block.width then .ok (decodeFitting l.block l.word)
  else .error (.strayBits l.block l.block.width)

/-- `LEN` and the lanes packed as in the low 68 bits of the frame word (R54). -/
def packPayload (p : Payload) : Nat :=
  2 ^ 64 * (p.len % 16) + 2 ^ 56 * p.lanes.p0.toNat + 2 ^ 48 * p.lanes.p1.toNat + 2 ^ 40 * p.lanes.p2.toNat
    + 2 ^ 32 * p.lanes.p3.toNat + 2 ^ 24 * p.lanes.p4.toNat + 2 ^ 16 * p.lanes.p5.toNat + 2 ^ 8 * p.lanes.p6.toNat
    + p.lanes.p7.toNat

/-- A number on a block's input ports. -/
def portLine (b : Block) (v : Nat) : Line := ⟨b, BitVec.ofNat 104 v⟩

/-- The registry's line: `ID`, `LEN`, `P0..P7` (R54). -/
def registryLine (id : Id) (p : Payload) : Line := portLine .registry (2 ^ 68 * id.toNat + packPayload p)

/-- A message row's line in either form. -/
def messageLine (m : Message) : Form → Payload → Line
  | .registry, p => registryLine m.identifier p
  | .standalone, p => portLine (.decoder m) (packPayload p)

/-- The line that presents an instruction. Lanes at or above `LEN` are kept as they are. -/
def encode : Instr → Line
  | .engine f p => messageLine .engine f p
  | .gear f p => messageLine .gear f p
  | .throttle f p => messageLine .throttle f p
  | .wheel f p => messageLine .wheel f p
  | .brakes f p => messageLine .brakes f p
  | .traction f p => messageLine .traction f p
  | .sensors f p => messageLine .sensors f p
  | .killsw f p => messageLine .killsw f p
  | .fuel f p => messageLine .fuel f p
  | .lights f p => messageLine .lights f p
  | .unmapped id p => registryLine id p
  | .isknown id => portLine .isKnown id.toNat
  | .nameof id => portLine .nameOf id.toNat
  | .lonib x => portLine .loNibble x.toNat
  | .hinib x => portLine .hiNibble x.toNat
  | .beu16 hi lo => portLine .bigEndianU16 (2 ^ 8 * hi.toNat + lo.toNat)
  | .bes16 hi lo => portLine .bigEndianS16 (2 ^ 8 * hi.toNat + lo.toNat)
  | .s12 v => portLine .signed12 v.toNat

/-- The block a bare table word is presented to, by the number of bits its format has, alone or in whole bytes: FW100
the registry, ID32 the query ISKNOWN, U8 LONIB, U8PAIR BEU16, U12 (12 bits) S12. The table's words of NAMEOF, HINIB,
BES16, and of S12 padded to 16 bits, are the same words as those of another row; the line's mnemonic tells them apart
and a bare word carries none (log entry 3). -/
def blockOfTableWidth : Nat → Option Block
  | 8 => some .loNibble
  | 12 => some .signed12
  | 16 => some .bigEndianU16
  | 32 => some .isKnown
  | 100 => some .registry
  | 104 => some .registry
  | _ => none

/-- The line of a bare table word. -/
def tableLine (nbits w : Nat) : Option Line :=
  if w < 2 ^ nbits then (blockOfTableWidth nbits).map (fun b => portLine b w) else none

/-- The instruction the decoder reads from a bare table word. -/
def decodeTableWord (nbits w : Nat) : Option Instr :=
  match tableLine nbits w with
  | some l => (decode l).toOption
  | none => none

end Sys2Proof
end

