-- ==== Sys2Proof/Machine/State.lean ====
section
/-!
DEFINITION. The record types (spec/10_state.md R20 to R32), the result of an evaluation (R34, R36), and the state: the
inputs the environment presents and the ports. The block itself holds no register, pc, flag or memory (R15 to R19).
-/

namespace Sys2Proof.Machine

/-- The ride mode, R23: six named modes and the explicit fallback with the two raw bytes. `unknown` is a named mode of
its own, not the fallback. -/
inductive RideMode where
  | rain
  | street
  | sport
  | track
  | unknown
  | off
  | rawHex (b1 b3 : Byte)
deriving DecidableEq, Repr

/-- R21. -/
structure EngineFrame where
  rpm : U16
  throttle : Byte
  killSwitch : U1
  throttleMap : U1
deriving DecidableEq, Repr

/-- R22. -/
structure GearFrame where
  gear : Nibble
  clutchIn : Bool
deriving DecidableEq, Repr

/-- R23. -/
structure ThrottleStateFrame where
  throttleOpen : Bool
  requestedMap : U1
  rideMode : RideMode
deriving DecidableEq, Repr

/-- R24; `tilt` and `lean` are `s12` values. -/
structure WheelSpeedFrame where
  frontWheel : U16
  rearWheel : U16
  tilt : Int
  lean : Int
deriving DecidableEq, Repr

/-- R25. -/
structure BrakeFrame where
  frontBrake : U16
  rearBrake : U16
deriving DecidableEq, Repr

/-- R26. -/
structure TractionFrame where
  buttonState : U1
deriving DecidableEq, Repr

/-- R27; `coolantRaw` is an `s16` value, tenths of a degree Celsius. -/
structure SensorFrame where
  rpm : U16
  gear : Nibble
  kickstandUp : Bool
  kickstandError : Bool
  coolantRaw : Int
deriving DecidableEq, Repr

/-- R28. -/
structure KillSwitchState where
  running : Bool
deriving DecidableEq, Repr

/-- R29; an integer in 0..100. -/
structure FuelLevel where
  percent : Nat
deriving DecidableEq, Repr

/-- R30. -/
structure LightsFrame where
  drlActive : Bool
  highBeamActive : Bool
  lowBeamActive : Bool
  highBeamBroken : Bool
  lowBeamBroken : Bool
deriving DecidableEq, Repr

/-- The tagged union `Record`, R20. -/
inductive Record where
  | engine (f : EngineFrame)
  | gear (f : GearFrame)
  | throttle (f : ThrottleStateFrame)
  | wheel (f : WheelSpeedFrame)
  | brakes (f : BrakeFrame)
  | traction (f : TractionFrame)
  | sensors (f : SensorFrame)
  | killsw (f : KillSwitchState)
  | fuel (f : FuelLevel)
  | lights (f : LightsFrame)
  /-- `Unmapped{raw}`, the eight payload bytes in index order (R31). -/
  | unmapped (raw : Lanes)
  /-- `Empty` (R32). -/
  | empty
deriving DecidableEq, Repr

/-- The hard failure `InvalidArgument(LEN)`: it records the offending length and nothing else (R114; decision D26). -/
structure InvalidArgument where
  len : Nat
deriving DecidableEq, Repr

/-- The result of an evaluation: what the output ports of the addressed block carry, the ports of the other blocks
having no value (R35; log entry 11), or the text of NAMEOF, which stands on no port (log entry 19). -/
inductive Output where
  /-- The registry: a record or the hard failure, with the port `KNOWN` (R34). -/
  | registry (result : Except InvalidArgument Record) (known : Bool)
  /-- A decoder sub-block: its variant, or "no record" (R36, R115). -/
  | standalone (result : Option Record)
  /-- ISKNOWN (R96). -/
  | isKnown (known : Bool)
  /-- NAMEOF (R110). A result and no port: a hardware block drives no string, and after NAMEOF no port has a value
  (DESIGN CHOICE, log entry 19). -/
  | name (text : String)
  /-- LONIB and HINIB, a `u4` (R74, R75). -/
  | nibble (v : Nibble)
  /-- BEU16, a `u16` (R76). -/
  | unsigned16 (v : U16)
  /-- BES16, an `s16` (R77). -/
  | signed16 (v : Int)
  /-- S12, an `s12` (R78). -/
  | signed12 (v : Int)
deriving DecidableEq, Repr

/-- The field buses of R34, one per field of every variant. `rideMode` is the code `RM` with `RM_B1` and `RM_B3`
(R23). -/
inductive Bus where
  | engineRpm
  | engineThrottle
  | engineKillSwitch
  | engineThrottleMap
  | gearGear
  | gearClutchIn
  | throttleOpen
  | throttleRequestedMap
  | throttleRm
  | throttleRmB1
  | throttleRmB3
  | wheelFrontWheel
  | wheelRearWheel
  | wheelTilt
  | wheelLean
  | brakesFrontBrake
  | brakesRearBrake
  | tractionButtonState
  | sensorsRpm
  | sensorsGear
  | sensorsKickstandUp
  | sensorsKickstandError
  | sensorsCoolantRaw
  | killswRunning
  | fuelPercent
  | lightsDrlActive
  | lightsHighBeamActive
  | lightsLowBeamActive
  | lightsHighBeamBroken
  | lightsLowBeamBroken
  | unmappedRaw
deriving DecidableEq, Repr

/-- The state. The block stores nothing between evaluations (R15 to R19, R37); what stands here is what a program
observes of it, "an evaluation's inputs and its output" (R19), and the inputs its environment has still to present. -/
structure State where
  /-- The inputs the environment presents next, in its order (R16, R72): the environment's, not the block's. -/
  pending : List Line
  /-- The values held on the input ports `ID`, `LEN`, `P0..P7`, or a sub-block's operand ports (R33, R36, R127);
  `none` before any input has been presented. -/
  presented : Option Line
  /-- The result of the last evaluation: the output ports `ERR`, `TAG`, `KNOWN`, the field buses or `VALID` (R34, R36),
  a primitive's result, or the text of NAMEOF, which is on no port (log entry 19); `none` before any input has been
  presented, when the ports carry no meaning (R37). -/
  output : Option Output
deriving DecidableEq, Repr

/-- Why a step stops with a fault. -/
inductive Fault where
  /-- Raised by `step` when the environment holds no input on the ports and has none left to present: no evaluation
  takes place (R37). Safe: nothing is proved of outputs before an input. No instruction raises it. -/
  | noInputPresented
deriving DecidableEq, Repr

/-- Why a step refuses. -/
inductive Refusal where
  /-- Raised by an arm of `exec` that has no meaning yet. Safe. No arm of this model raises it. -/
  | notModelled (mnemonic : String)
  /-- Raised by `step` on a line whose word is wider than the addressed block's ports (R79, decision D2). Safe: it is
  an input the ports cannot carry. No instruction raises it. -/
  | noPortForm (reason : DecodeReject)
deriving DecidableEq, Repr

/-- The block has no reset and nothing to reset (R124, R37): no input has been presented, and the outputs carry no
value (log entry 14). -/
def State.reset : State := { pending := [], presented := none, output := none }

end Sys2Proof.Machine
end

