-- ==== Sys2Proof/Machine/Operands.lean ====
section
/-!
DEFINITION. Every form in which an operand is assembled from payload bytes (spec/30_encoding.md R68), the five
primitives among them (spec/40_primitives.md R74 to R78), and the payload read (spec/20_memory.md R38).
-/

namespace Sys2Proof.Machine

/-- `b[i]` by index over the eight lanes. -/
def laneAt (b : Lanes) (i : Nat) : Option Byte := b.toList[i]?

/-- `MemRead(i, 1)`: the payload byte at index `i`, which exists for `i < LEN` and has a lane for `i ≤ 7` (R38, R9).
The payload space is read-only: there is no write. -/
def memRead (p : Payload) (i : Nat) : Option Byte := if i < p.len then laneAt p.lanes i else none

/-- Form (b): a single bit of a byte as an integer. -/
def bitField (x : Byte) (k : Nat) : U1 := bitOf x k

/-- Form (b): the test `x[k] == 1` (R14). -/
def bitSet (x : Byte) (k : Nat) : Bool := bitOf x k == 1

/-- Form (b): the test `x[k] == 0` (R14). -/
def bitClear (x : Byte) (k : Nat) : Bool := bitOf x k == 0

/-- `loNibble`, R74: `x[3:0]`. -/
def loNibble (x : Byte) : Nibble := x.extractLsb' 0 4

/-- `hiNibble`, R75: `x[7:4]`. -/
def hiNibble (x : Byte) : Nibble := x.extractLsb' 4 4

/-- `bigEndianU16`, R76: the byte at the lower index is the high byte (R41). -/
def bigEndianU16 (hi lo : Byte) : U16 := hi ++ lo

/-- `bigEndianS16`, R77. -/
def bigEndianS16 (hi lo : Byte) : Int :=
  let u := (bigEndianU16 hi lo).toNat
  if u ≥ 32768 then (u : Int) - 65536 else u

/-- `signed12`, R78. -/
def signed12 (v : U12) : Int := if bitOf v 11 = 1 then (v.toNat : Int) - 4096 else v.toNat

/-- Form (e), the tilt pattern `b[5] ++ b[6][7:4]`: a whole byte over a high nibble (R43, R60). -/
def patternByteHiNibble (byte nibbles : Byte) : U12 := byte ++ hiNibble nibbles

/-- Form (e), the lean pattern `b[6][3:0] ++ b[7]`: a low nibble over a whole byte (R43, R60). -/
def patternLoNibbleByte (nibbles byte : Byte) : U12 := loNibble nibbles ++ byte

/-- Form (f): the little-endian word `b[3] ++ b[2] ++ b[1] ++ b[0]`, the only little-endian assembly (R42). -/
def littleEndianU32 (b0 b1 b2 b3 : Byte) : U32 := b3 ++ b2 ++ b1 ++ b0

/-- The test `w[k] == 1` on the Lights word (R94). -/
def wordBitSet (w : U32) (k : Nat) : Bool := bitOf w k == 1

/-- The payload of a list of bytes, the functional view's input (R33): `LEN` is the list's length. A lane the list
does not reach carries no payload byte and no rule reads it (R40, 93 I15); it is written 00 as in 95_test_vectors.md
(log entry 5). -/
def payloadOfBytes (bytes : List Byte) : Payload where
  len := bytes.length
  lanes :=
    { p0 := bytes.getD 0 0
      p1 := bytes.getD 1 0
      p2 := bytes.getD 2 0
      p3 := bytes.getD 3 0
      p4 := bytes.getD 4 0
      p5 := bytes.getD 5 0
      p6 := bytes.getD 6 0
      p7 := bytes.getD 7 0 }

end Sys2Proof.Machine
end

