-- ==== Sys2Proof/Machine/Decoders.lean ====
section
/-!
DEFINITION. The ten per-message decoders as functions of the payload (spec/41_decoders.md R81 to R95): "no record" or
one variant. A decoder is used by the registry (R98) and standalone (R36).
-/

namespace Sys2Proof.Machine

/-- The common template, R81: the soft failure "no record" below the minimum length, the decoder's body otherwise. -/
def decoderTemplate {α : Type} (m : Message) (body : Lanes → α) (p : Payload) : Option α :=
  if p.len < m.minLen then none else some (body p.lanes)

/-- R82; the kill bit is inverted. -/
def engineBody (b : Lanes) : EngineFrame where
  rpm := bigEndianU16 b.p0 b.p1
  throttle := b.p2
  killSwitch := if bitField b.p3 4 = 0 then 1 else 0
  throttleMap := bitField b.p4 0

/-- R83; the raw nibble, whatever it is. -/
def gearBody (b : Lanes) : GearFrame where
  gear := hiNibble b.p0
  clutchIn := bitSet b.p0 3

/-- `rideModeOf(k, x)`, R85: exact match on all eight bits of `k`, and no other mapping (R70). -/
def rideModeOf (k x : Byte) : RideMode :=
  if k = 0xAD then .rain
  else if k = 0x2D then .street
  else if k = 0x6D then .sport
  else if k = 0xED then .track
  else if k = 0x89 then .unknown
  else if k = 0xC9 then .off
  else .rawHex k x

/-- R84. -/
def throttleBody (b : Lanes) : ThrottleStateFrame where
  throttleOpen := bitClear b.p0 1
  requestedMap := bitField b.p1 6
  rideMode := rideModeOf b.p1 b.p3

/-- R86; the two angles share byte 6. -/
def wheelBody (b : Lanes) : WheelSpeedFrame where
  frontWheel := bigEndianU16 b.p0 b.p1
  rearWheel := bigEndianU16 b.p2 b.p3
  tilt := signed12 (patternByteHiNibble b.p5 b.p6)
  lean := signed12 (patternLoNibbleByte b.p6 b.p7)

/-- R87. -/
def brakesBody (b : Lanes) : BrakeFrame where
  frontBrake := bigEndianU16 b.p0 b.p1
  rearBrake := bigEndianU16 b.p2 b.p3

/-- R88. -/
def tractionBody (b : Lanes) : TractionFrame where
  buttonState := bitField b.p2 0

/-- R89; bit 7 of `b[1]` is read both as `rpm[15]` and as the kickstand bit. -/
def sensorsBody (b : Lanes) : SensorFrame where
  rpm := bigEndianU16 b.p1 b.p2
  gear := loNibble b.p3
  kickstandUp := bitClear b.p1 7
  kickstandError := bitSet b.p4 7
  coolantRaw := bigEndianS16 b.p6 b.p7

/-- R91; a set bit means running. -/
def killswBody (b : Lanes) : KillSwitchState where
  running := bitSet b.p0 4

/-- `round(x)`, the nearest integer (R10). No value rounded here is a tie (R93), so the tie rule is not seen
(DESIGN CHOICE, log entry 16). -/
def roundNearest (x : Rat) : Int := (x + 1 / 2).floor

/-- `clamp(x, lo, hi)` (R10). -/
def clamp (x lo hi : Int) : Int := min (max x lo) hi

/-- The exact rational `x = (256 - b[0]) / 255 * 100` of R92. -/
def fuelRatio (raw : Byte) : Rat := (256 - (raw.toNat : Rat)) / 255 * 100

/-- R92: `percent = clamp(round(x), 0, 100)`. -/
def fuelPercent (raw : Byte) : Nat := (clamp (roundNearest (fuelRatio raw)) 0 100).toNat

/-- R92. -/
def fuelBody (b : Lanes) : FuelLevel where
  percent := fuelPercent b.p0

/-- R94: bit 5 is the high beam and bit 6 the low beam, of the little-endian word (R42, R66). -/
def lightsBody (b : Lanes) : LightsFrame :=
  let w := littleEndianU32 b.p0 b.p1 b.p2 b.p3
  { drlActive := wordBitSet w 3
    highBeamActive := wordBitSet w 5
    lowBeamActive := wordBitSet w 6
    highBeamBroken := wordBitSet w 26
    lowBeamBroken := wordBitSet w 27 }

/-- The ten decoders in their functional form `Payload → Option <Variant>` (R36). -/
def engineDecoder : Payload → Option EngineFrame := decoderTemplate .engine engineBody

def gearDecoder : Payload → Option GearFrame := decoderTemplate .gear gearBody

def throttleDecoder : Payload → Option ThrottleStateFrame := decoderTemplate .throttle throttleBody

def wheelDecoder : Payload → Option WheelSpeedFrame := decoderTemplate .wheel wheelBody

def brakesDecoder : Payload → Option BrakeFrame := decoderTemplate .brakes brakesBody

def tractionDecoder : Payload → Option TractionFrame := decoderTemplate .traction tractionBody

def sensorsDecoder : Payload → Option SensorFrame := decoderTemplate .sensors sensorsBody

def killswDecoder : Payload → Option KillSwitchState := decoderTemplate .killsw killswBody

def fuelDecoder : Payload → Option FuelLevel := decoderTemplate .fuel fuelBody

def lightsDecoder : Payload → Option LightsFrame := decoderTemplate .lights lightsBody

/-- The decoder of a message, its variant as a record. -/
def runDecoder : Message → Payload → Option Record
  | .engine, p => (engineDecoder p).map .engine
  | .gear, p => (gearDecoder p).map .gear
  | .throttle, p => (throttleDecoder p).map .throttle
  | .wheel, p => (wheelDecoder p).map .wheel
  | .brakes, p => (brakesDecoder p).map .brakes
  | .traction, p => (tractionDecoder p).map .traction
  | .sensors, p => (sensorsDecoder p).map .sensors
  | .killsw, p => (killswDecoder p).map .killsw
  | .fuel, p => (fuelDecoder p).map .fuel
  | .lights, p => (lightsDecoder p).map .lights

/-- `coolantTempC = coolantRaw / 10`, the exact rational (R27, R90). -/
def coolantTempC (f : SensorFrame) : Rat := (f.coolantRaw : Rat) / 10

end Sys2Proof.Machine
end

