-- ==== Sys2Proof/Machine/Registry.lean ====
section
/-!
DEFINITION. The dispatch registry as a function of identifier and payload (spec/42_dispatch.md R97 to R101, R104).
-/

namespace Sys2Proof.Machine

/-- The payload length `decode` admits (R5, R97). -/
def registryLength : Nat := 8

/-- Step 2 of `decode`, the selection by identifier (R98), with the empty-record path (R100) and the unmapped fallback
(R99). -/
def selectRecord (id : Id) (p : Payload) : Record :=
  match messageOf id with
  | some m =>
    match runDecoder m p with
    | some r => r
    | none => .empty
  | none => .unmapped p.lanes

/-- `decode(id, payload)`: the length check decides first and alone (R97, R117), then the selection. -/
def registryDecode (id : Id) (p : Payload) : Except InvalidArgument Record :=
  if p.len ≠ registryLength then .error ⟨p.len⟩ else .ok (selectRecord id p)

/-- The multiplexer with all ten decoders evaluated on the same lanes and one output selected by `ID`, the other
structure R104 allows. -/
def parallelDecode (id : Id) (p : Payload) : Except InvalidArgument Record :=
  let results : List (Id × Option Record) := Message.all.map (fun m => (m.identifier, runDecoder m p))
  let selected : Record :=
    match results.filter (fun x => x.1 == id) with
    | [] => .unmapped p.lanes
    | (_, r) :: _ => r.getD .empty
  if p.len ≠ registryLength then .error ⟨p.len⟩ else .ok selected

end Sys2Proof.Machine
end

