-- ==== Sys2Proof/Machine/Ops.lean ====
section
/-!
DEFINITION. The operations over the state. The environment's presenting an input and the driving of the output ports
are the only two changes there are: the block writes no storage (spec/20_memory.md R38), saves nothing on a failure and
has no return from one (spec/60_exceptions.md R118, R119).
-/

namespace Sys2Proof.Machine

/-- The result type of a step of this model. -/
abbrev StepOutcome := Host.Outcome State Fault Refusal

/-- The environment's next input: the oldest line it has still to present, else the line whose inputs it still holds
(R16, R127). `none` when no input has ever been presented (log entry 2). -/
def State.nextInput (s : State) : Option (Line × State) :=
  match s.pending with
  | l :: rest => some (l, { s with pending := rest, presented := some l })
  | [] =>
    match s.presented with
    | some l => some (l, s)
    | none => none

/-- Make `o` the result of this evaluation, on the output ports of the addressed block where it has ports (the text of
NAMEOF has none: log entry 19). -/
def State.drive (s : State) (o : Output) : State := { s with output := some o }

/-- Raise `InvalidArgument(LEN)` from `decode` (R114): the failure of the evaluation, no record and no part of one, with
`KNOWN` still `isKnownIdentifier(ID)`. Nothing is saved and no mode changes (R118), and the next evaluation is unaffected
(R119), so the machine goes on (DEDUCED, log entry 1). -/
def raiseInvalidArgument (id : Id) (len : Nat) (s : State) : StepOutcome :=
  .next (s.drive (.registry (.error ⟨len⟩) (isKnownIdentifier id)))

/-- A registry evaluation: the hard failure, or the record on the ports with `ERR = 0` (R97 to R101, R34). -/
def evalRegistry (id : Id) (p : Payload) (s : State) : StepOutcome :=
  match registryDecode id p with
  | .error e => raiseInvalidArgument id e.len s
  | .ok r => .next (s.drive (.registry (.ok r) (isKnownIdentifier id)))

/-- A standalone evaluation of a decoder sub-block: its variant, or "no record", which is not an error (R36, R81,
R115). -/
def evalStandalone (m : Message) (p : Payload) (s : State) : StepOutcome :=
  .next (s.drive (.standalone (runDecoder m p)))

/-- A message row in the form its line has. -/
def evalMessage (m : Message) (form : Form) (p : Payload) (s : State) : StepOutcome :=
  match form with
  | .registry => evalRegistry m.identifier p s
  | .standalone => evalStandalone m p s

end Sys2Proof.Machine
end

