-- ==== Sys2Proof/Machine/Messages.lean ====
section
/-!
DEFINITION. The meanings of the ten message rows (spec/41_decoders.md R82 to R94) and of the default row UNMAPPED
(spec/42_dispatch.md R99).
-/

namespace Sys2Proof.Machine

/-- ENGINE, R82. -/
def execEngine (form : Form) (p : Payload) (s : State) : StepOutcome := evalMessage .engine form p s

/-- GEAR, R83. -/
def execGear (form : Form) (p : Payload) (s : State) : StepOutcome := evalMessage .gear form p s

/-- THROTTLE, R84 and R85. -/
def execThrottle (form : Form) (p : Payload) (s : State) : StepOutcome := evalMessage .throttle form p s

/-- WHEEL, R86. -/
def execWheel (form : Form) (p : Payload) (s : State) : StepOutcome := evalMessage .wheel form p s

/-- BRAKES, R87. -/
def execBrakes (form : Form) (p : Payload) (s : State) : StepOutcome := evalMessage .brakes form p s

/-- TRACTION, R88. -/
def execTraction (form : Form) (p : Payload) (s : State) : StepOutcome := evalMessage .traction form p s

/-- SENSORS, R89. -/
def execSensors (form : Form) (p : Payload) (s : State) : StepOutcome := evalMessage .sensors form p s

/-- KILLSW, R91. -/
def execKillsw (form : Form) (p : Payload) (s : State) : StepOutcome := evalMessage .killsw form p s

/-- FUEL, R92. -/
def execFuel (form : Form) (p : Payload) (s : State) : StepOutcome := evalMessage .fuel form p s

/-- LIGHTS, R94. -/
def execLights (form : Form) (p : Payload) (s : State) : StepOutcome := evalMessage .lights form p s

/-- UNMAPPED, R99: the registry on the identifier the row carries, with the length check of R97 first. -/
def execUnmapped (id : Id) (p : Payload) (s : State) : StepOutcome := evalRegistry id p s

end Sys2Proof.Machine
end

