-- ==== Sys2Proof/Machine/Primitives.lean ====
section
/-!
DEFINITION. The meanings of the five bit primitives used on their own (spec/40_primitives.md R74 to R78).
-/

namespace Sys2Proof.Machine

/-- LONIB, R74. -/
def execLonib (x : Byte) (s : State) : StepOutcome := .next (s.drive (.nibble (loNibble x)))

/-- HINIB, R75. -/
def execHinib (x : Byte) (s : State) : StepOutcome := .next (s.drive (.nibble (hiNibble x)))

/-- BEU16, R76. -/
def execBeu16 (hi lo : Byte) (s : State) : StepOutcome := .next (s.drive (.unsigned16 (bigEndianU16 hi lo)))

/-- BES16, R77. -/
def execBes16 (hi lo : Byte) (s : State) : StepOutcome := .next (s.drive (.signed16 (bigEndianS16 hi lo)))

/-- S12, R78. -/
def execS12 (v : U12) (s : State) : StepOutcome := .next (s.drive (.signed12 (signed12 v)))

end Sys2Proof.Machine
end

