-- ==== Sys2Proof/Config.lean ====
section
/-!
DEFINITION. The parameters of spec/00_scope.md R6 that the spec leaves OPEN. Each is an opaque constant: nothing in
Lean can prove a value of it, so a claim holds for every value the spec allows (decisions D10, D11, D12; log entry 4).
-/

namespace Sys2Proof.Config

/-- The free choice behind `RIDE_HEX_MIN_DIGITS ∈ {1, 2}` (R108, D10). -/
opaque rideHexPadded : Bool

/-- `RIDE_HEX_MIN_DIGITS`: 1 or 2, and nothing says which. -/
def rideHexMinDigits : Nat := if rideHexPadded then 2 else 1

/-- The free choice behind `ID_HEX_MIN_DIGITS ∈ {1, 2, 3}` (R110, D11). -/
opaque idHexExtraDigits : Fin 3

/-- `ID_HEX_MIN_DIGITS`: 1, 2 or 3, and nothing says which. -/
def idHexMinDigits : Nat := idHexExtraDigits.val + 1

/-- `CHANNEL_NAME` of the eight known identifiers whose label the spec leaves OPEN (R111, D12): one fixed string per
identifier, and nothing says which. -/
opaque openChannelName : Id → String

end Sys2Proof.Config
end

