-- ==== Sys2Proof/Machine/Flags.lean ====
section
/-!
DEFINITION. The block has no flags or condition codes (spec/10_state.md R17). What its ports carry beside the record are
the codes of this file: `ERR`, `TAG`, `KNOWN`, `VALID`, `RM` and the field buses (R20, R23, R34 to R36). A port that an
output does not drive has no value here (R35).
-/

namespace Sys2Proof.Machine

/-- The variant code `TAG` of a record (R20). -/
def Record.tag : Record → BitVec 4
  | .engine _ => 0
  | .gear _ => 1
  | .throttle _ => 2
  | .wheel _ => 3
  | .brakes _ => 4
  | .traction _ => 5
  | .sensors _ => 6
  | .killsw _ => 7
  | .fuel _ => 8
  | .lights _ => 9
  | .unmapped _ => 10
  | .empty => 11

/-- The port `ERR`, driven by the registry (R34, R114). -/
def Output.errPort : Output → Option U1
  | .registry (.ok _) _ => some 0
  | .registry (.error _) _ => some 1
  | _ => none

/-- The port `TAG`, 15 on the hard failure (R20, R34, R114). -/
def Output.tagPort : Output → Option (BitVec 4)
  | .registry (.ok r) _ => some r.tag
  | .registry (.error _) _ => some 15
  | _ => none

/-- The port `KNOWN`, driven on every registry evaluation and by the query (R34, R96). -/
def Output.knownPort : Output → Option U1
  | .registry _ k => some (BitVec.ofBool k)
  | .isKnown k => some (BitVec.ofBool k)
  | _ => none

/-- The port `VALID` of a decoder sub-block (R36, R115). -/
def Output.validPort : Output → Option U1
  | .standalone (some _) => some 1
  | .standalone none => some 0
  | _ => none

/-- The record an output carries, if it carries one: no record on a failure of either kind (R114, R115). -/
def Output.record? : Output → Option Record
  | .registry (.ok r) _ => some r
  | .standalone r => r
  | _ => none

/-- The code `RM` of a ride mode (R23, R85). -/
def RideMode.code : RideMode → BitVec 3
  | .rain => 0
  | .street => 1
  | .sport => 2
  | .track => 3
  | .unknown => 4
  | .off => 5
  | .rawHex _ _ => 6

/-- `RM_B1`, meaningful only when `RM = 6` (R23). -/
def RideMode.rmB1 : RideMode → Option Byte
  | .rawHex k _ => some k
  | _ => none

/-- `RM_B3`, meaningful only when `RM = 6` (R23). -/
def RideMode.rmB3 : RideMode → Option Byte
  | .rawHex _ x => some x
  | _ => none

/-- The ride mode of port values; code 7 is never produced and is refused (R23, R70, 93 I17). -/
def RideMode.ofPorts (code : BitVec 3) (b1 b3 : Byte) : Option RideMode :=
  match code.toNat with
  | 0 => some .rain
  | 1 => some .street
  | 2 => some .sport
  | 3 => some .track
  | 4 => some .unknown
  | 5 => some .off
  | 6 => some (.rawHex b1 b3)
  | _ => none

/-- The width of each field bus (R21 to R31; decision D5). -/
def Bus.width : Bus → Nat
  | .engineRpm => 16
  | .engineThrottle => 8
  | .engineKillSwitch => 1
  | .engineThrottleMap => 1
  | .gearGear => 4
  | .gearClutchIn => 1
  | .throttleOpen => 1
  | .throttleRequestedMap => 1
  | .throttleRm => 3
  | .throttleRmB1 => 8
  | .throttleRmB3 => 8
  | .wheelFrontWheel => 16
  | .wheelRearWheel => 16
  | .wheelTilt => 12
  | .wheelLean => 12
  | .brakesFrontBrake => 16
  | .brakesRearBrake => 16
  | .tractionButtonState => 1
  | .sensorsRpm => 16
  | .sensorsGear => 4
  | .sensorsKickstandUp => 1
  | .sensorsKickstandError => 1
  | .sensorsCoolantRaw => 16
  | .killswRunning => 1
  | .fuelPercent => 7
  | .lightsDrlActive => 1
  | .lightsHighBeamActive => 1
  | .lightsLowBeamActive => 1
  | .lightsHighBeamBroken => 1
  | .lightsLowBeamBroken => 1
  | .unmappedRaw => 64

/-- `u8[8]` as eight bytes on one bus, `b[0]` highest as in the frame word (R34, R54; DESIGN CHOICE,
log entry 10). -/
def busOfLanes (b : Lanes) : BitVec 64 := b.p0 ++ b.p1 ++ b.p2 ++ b.p3 ++ b.p4 ++ b.p5 ++ b.p6 ++ b.p7

/-- The lanes of such a bus. -/
def lanesOfBus (w : BitVec 64) : Lanes where
  p0 := w.extractLsb' 56 8
  p1 := w.extractLsb' 48 8
  p2 := w.extractLsb' 40 8
  p3 := w.extractLsb' 32 8
  p4 := w.extractLsb' 24 8
  p5 := w.extractLsb' 16 8
  p6 := w.extractLsb' 8 8
  p7 := w.extractLsb' 0 8

/-- The value of a field bus under a record: signed fields in two's complement, booleans as one bit. A bus of another
variant, and `RM_B1`, `RM_B3` under a named ride mode, have no value (R23, R34, R35). -/
def Record.bus : Record → (b : Bus) → Option (BitVec b.width)
  | .engine f, .engineRpm => some f.rpm
  | .engine f, .engineThrottle => some f.throttle
  | .engine f, .engineKillSwitch => some f.killSwitch
  | .engine f, .engineThrottleMap => some f.throttleMap
  | .gear f, .gearGear => some f.gear
  | .gear f, .gearClutchIn => some (BitVec.ofBool f.clutchIn)
  | .throttle f, .throttleOpen => some (BitVec.ofBool f.throttleOpen)
  | .throttle f, .throttleRequestedMap => some f.requestedMap
  | .throttle f, .throttleRm => some f.rideMode.code
  | .throttle f, .throttleRmB1 => f.rideMode.rmB1
  | .throttle f, .throttleRmB3 => f.rideMode.rmB3
  | .wheel f, .wheelFrontWheel => some f.frontWheel
  | .wheel f, .wheelRearWheel => some f.rearWheel
  | .wheel f, .wheelTilt => some (BitVec.ofInt 12 f.tilt)
  | .wheel f, .wheelLean => some (BitVec.ofInt 12 f.lean)
  | .brakes f, .brakesFrontBrake => some f.frontBrake
  | .brakes f, .brakesRearBrake => some f.rearBrake
  | .traction f, .tractionButtonState => some f.buttonState
  | .sensors f, .sensorsRpm => some f.rpm
  | .sensors f, .sensorsGear => some f.gear
  | .sensors f, .sensorsKickstandUp => some (BitVec.ofBool f.kickstandUp)
  | .sensors f, .sensorsKickstandError => some (BitVec.ofBool f.kickstandError)
  | .sensors f, .sensorsCoolantRaw => some (BitVec.ofInt 16 f.coolantRaw)
  | .killsw f, .killswRunning => some (BitVec.ofBool f.running)
  | .fuel f, .fuelPercent => some (BitVec.ofNat 7 f.percent)
  | .lights f, .lightsDrlActive => some (BitVec.ofBool f.drlActive)
  | .lights f, .lightsHighBeamActive => some (BitVec.ofBool f.highBeamActive)
  | .lights f, .lightsLowBeamActive => some (BitVec.ofBool f.lowBeamActive)
  | .lights f, .lightsHighBeamBroken => some (BitVec.ofBool f.highBeamBroken)
  | .lights f, .lightsLowBeamBroken => some (BitVec.ofBool f.lowBeamBroken)
  | .unmapped b, .unmappedRaw => some (busOfLanes b)
  | _, _ => none

/-- The record a consumer reads from `TAG` and the field buses. `TAG` 12 to 14 are never produced, 15 is the hard
failure, and `RM` 7 is never produced: all are refused (R20, R70, 93 I17). Other field values that no evaluation produces,
a `percent` of 101 to 127 on the 7-bit bus and `RM = 6` with a key of the ride-mode table in `RM_B1`, are read as they
stand: the spec names no refusal of them and gives them no meaning (DESIGN CHOICE, log entry 18). -/
def recordOfPorts (tag : BitVec 4) (bus : (b : Bus) → BitVec b.width) : Option Record :=
  let flag (v : U1) : Bool := v == 1
  match tag.toNat with
  | 0 => some (.engine ⟨bus .engineRpm, bus .engineThrottle, bus .engineKillSwitch, bus .engineThrottleMap⟩)
  | 1 => some (.gear ⟨bus .gearGear, flag (bus .gearClutchIn)⟩)
  | 2 =>
    (RideMode.ofPorts (bus .throttleRm) (bus .throttleRmB1) (bus .throttleRmB3)).map fun m =>
      .throttle ⟨flag (bus .throttleOpen), bus .throttleRequestedMap, m⟩
  | 3 =>
    some (.wheel ⟨bus .wheelFrontWheel, bus .wheelRearWheel, (bus .wheelTilt).toInt, (bus .wheelLean).toInt⟩)
  | 4 => some (.brakes ⟨bus .brakesFrontBrake, bus .brakesRearBrake⟩)
  | 5 => some (.traction ⟨bus .tractionButtonState⟩)
  | 6 =>
    some (.sensors ⟨bus .sensorsRpm, bus .sensorsGear, flag (bus .sensorsKickstandUp),
      flag (bus .sensorsKickstandError), (bus .sensorsCoolantRaw).toInt⟩)
  | 7 => some (.killsw ⟨flag (bus .killswRunning)⟩)
  | 8 => some (.fuel ⟨(bus .fuelPercent).toNat⟩)
  | 9 =>
    some (.lights ⟨flag (bus .lightsDrlActive), flag (bus .lightsHighBeamActive), flag (bus .lightsLowBeamActive),
      flag (bus .lightsHighBeamBroken), flag (bus .lightsLowBeamBroken)⟩)
  | 10 => some (.unmapped (lanesOfBus (bus .unmappedRaw)))
  | 11 => some .empty
  | _ => none

end Sys2Proof.Machine
end

