-- ==== Sys2Proof/Machine/Text.lean ====
section
/-!
DEFINITION. Hexadecimal text (spec/43_output_views.md R108 to R110).
-/

namespace Sys2Proof.Machine

/-- An uppercase hexadecimal digit. -/
def hexCharUpper : Nat → Char
  | 0 => '0'
  | 1 => '1'
  | 2 => '2'
  | 3 => '3'
  | 4 => '4'
  | 5 => '5'
  | 6 => '6'
  | 7 => '7'
  | 8 => '8'
  | 9 => '9'
  | 10 => 'A'
  | 11 => 'B'
  | 12 => 'C'
  | 13 => 'D'
  | 14 => 'E'
  | _ => 'F'

/-- A lowercase hexadecimal digit. -/
def hexCharLower : Nat → Char
  | 10 => 'a'
  | 11 => 'b'
  | 12 => 'c'
  | 13 => 'd'
  | 14 => 'e'
  | 15 => 'f'
  | d => hexCharUpper d

/-- The `k` low hexadecimal digits of `v`, most significant first. -/
def nibblesOf : Nat → Nat → List Nat
  | 0, _ => []
  | k + 1, v => v / 16 ^ k % 16 :: nibblesOf k v

/-- The digits with no leading zero, and the one digit 0 for the value 0 (R108). -/
def trimZeros : List Nat → List Nat
  | 0 :: d :: ds => trimZeros (d :: ds)
  | ds => ds

/-- Left-padded with 0 to at least `m` digits (R108). -/
def padZeros (m : Nat) (ds : List Nat) : List Nat := List.replicate (m - ds.length) 0 ++ ds

/-- The digits of a value below 2^32, at least `m` of them. -/
def hexDigits (v m : Nat) : List Nat := padZeros m (trimZeros (nibblesOf 8 v))

/-- `hexLower(v, m)`, R108. -/
def hexLower (v m : Nat) : String := String.ofList ((hexDigits v m).map hexCharLower)

/-- `hexUpper(v, m)`, R110. -/
def hexUpper (v m : Nat) : String := String.ofList ((hexDigits v m).map hexCharUpper)

/-- `hex2U(b)`: exactly two uppercase digits (R109). -/
def hex2U (b : Byte) : String := String.ofList [hexCharUpper (b.toNat / 16), hexCharUpper (b.toNat % 16)]

/-- Strings joined by a separator, with none before the first or after the last. -/
def joinWith (sep : String) : List String → String
  | [] => ""
  | [s] => s
  | s :: t :: ss => s ++ sep ++ joinWith sep (t :: ss)

end Sys2Proof.Machine
end

