-- ==== Sys2Proof/Machine/Views.lean ====
section
/-!
DEFINITION. The views at the output boundary (spec/43_output_views.md R105 to R112): the key-value map of a record, the
text values, `nameOf`, and the binary64 number of the coolant temperature (spec/41_decoders.md R90). No view is part of
the state.
-/

namespace Sys2Proof.Machine

/-- The ride mode's text (R107, R108), with the padding of the fallback label as an argument. -/
def rideModeLabel (minDigits : Nat) : RideMode → String
  | .rain => "Rain"
  | .street => "Street"
  | .sport => "Sport"
  | .track => "Track"
  | .unknown => "Unknown"
  | .off => "Off"
  | .rawHex k x => "0x" ++ hexLower k.toNat minDigits ++ " / 0x" ++ hexLower x.toNat minDigits

/-- The `unmapped` value: the bytes in index order, two uppercase digits each, one space between (R109). -/
def unmappedText (b : Lanes) : String := joinWith " " (b.toList.map hex2U)

/-- `2^k` as a rational. -/
def powTwo : Int → Rat
  | .ofNat n => ((2 ^ n : Nat) : Rat)
  | .negSucc n => 1 / ((2 ^ (n + 1) : Nat) : Rat)

/-- Round to the nearest integer, a tie to the even one. -/
def roundTiesEven (q : Rat) : Int :=
  let f := q.floor
  let r := q - f
  if r < 1 / 2 then f
  else if 1 / 2 < r then f + 1
  else if f % 2 = 0 then f else f + 1

/-- The exponent `e` with `2^e ≤ q < 2^(e+1)`, for a positive rational. -/
def binaryExponent (q : Rat) : Int :=
  let e := (Nat.log2 q.num.natAbs : Int) - Nat.log2 q.den
  if powTwo e ≤ q then e else e - 1

/-- The 53-bit significand of the binary64 value nearest to a positive rational, as an integer in units of
`2^(binaryExponent q - 52)`. -/
def binarySignificand (q : Rat) : Int := roundTiesEven (q * powTwo (52 - binaryExponent q))

/-- The binary64 value nearest to a rational, in the range of the normal numbers and zero, which holds every value of
this block (R90; PRESUMED, 93 GK1, log entry 8). -/
def nearestBinary64 (q : Rat) : Rat :=
  let magnitude (a : Rat) : Rat := binarySignificand a * powTwo (binaryExponent a - 52)
  if q = 0 then 0 else if q < 0 then -magnitude (-q) else magnitude q

/-- The 64 bits of that value: sign, biased exponent, fraction (PRESUMED: IEEE 754 binary64, 93 GK1). A significand that
rounds up to `2^53` carries into the exponent. -/
def binary64Bits (q : Rat) : BitVec 64 :=
  let pattern (sign : U1) (a : Rat) : BitVec 64 :=
    sign ++ BitVec.ofInt 63 ((binaryExponent a + 1022) * 2 ^ 52 + binarySignificand a)
  if q = 0 then 0 else if q < 0 then pattern 1 (-q) else pattern 0 q

/-- A value of the key-value view (R105). A floating-point value is given as the exact architected rational and as the
binary64 number nearest to it (R90). -/
inductive Value where
  | int (v : Int)
  | bool (v : Bool)
  | float (exact : Rat) (binary64 : BitVec 64)
  | str (v : String)
deriving DecidableEq, Repr

/-- An unsigned field as an integer of the view. -/
def uintValue {n : Nat} (v : BitVec n) : Value := .int v.toNat

/-- A rational as a floating-point number of the view. -/
def floatValue (q : Rat) : Value := .float q (binary64Bits q)

/-- The key-value view, R105 and R106, with the padding of R108 as an argument: the keys of the variant and no
others. -/
def viewWith (rideDigits : Nat) : Record → List (String × Value)
  | .engine f =>
    [("rpm", uintValue f.rpm), ("throttle", uintValue f.throttle), ("killSwitch", uintValue f.killSwitch),
      ("throttleMap", uintValue f.throttleMap)]
  | .gear f => [("gear", uintValue f.gear), ("clutchIn", .bool f.clutchIn)]
  | .throttle f =>
    [("throttleOpen", .bool f.throttleOpen), ("requestedMap", uintValue f.requestedMap),
      ("rideMode", .str (rideModeLabel rideDigits f.rideMode))]
  | .wheel f =>
    [("frontWheel", uintValue f.frontWheel), ("rearWheel", uintValue f.rearWheel), ("tilt", .int f.tilt),
      ("lean", .int f.lean)]
  | .brakes f => [("frontBrake", uintValue f.frontBrake), ("rearBrake", uintValue f.rearBrake)]
  | .traction f => [("buttonState", uintValue f.buttonState)]
  | .sensors f =>
    [("rpm", uintValue f.rpm), ("gear", uintValue f.gear), ("kickstandUp", .bool f.kickstandUp),
      ("kickstandError", .bool f.kickstandError), ("coolantTempC", floatValue (coolantTempC f))]
  | .killsw f => [("running", .bool f.running)]
  | .fuel f => [("percent", .int f.percent)]
  | .lights f =>
    [("drlActive", .bool f.drlActive), ("highBeamActive", .bool f.highBeamActive),
      ("lowBeamActive", .bool f.lowBeamActive), ("highBeamBroken", .bool f.highBeamBroken),
      ("lowBeamBroken", .bool f.lowBeamBroken)]
  | .unmapped b => [("unmapped", .str (unmappedText b))]
  | .empty => []

/-- The view under the parameter the spec leaves OPEN. -/
def view (r : Record) : List (String × Value) := viewWith Config.rideHexMinDigits r

/-- `CHANNEL_NAME`, R111: two labels the spec assigns, eight it leaves OPEN. -/
def channelName (id : Id) : String :=
  if id = 0x12A then "Throttle/Mode"
  else if id = 0x290 then "Brakes"
  else Config.openChannelName id

/-- `nameOf(id)`, R110, with the padding of an unknown identifier's digits as an argument. -/
def nameOfWith (minDigits : Nat) (id : Id) : String :=
  if isKnownIdentifier id then channelName id else "Unknown (0x" ++ hexUpper id.toNat minDigits ++ ")"

/-- `nameOf` under the parameter the spec leaves OPEN. -/
def nameOf (id : Id) : String := nameOfWith Config.idHexMinDigits id

end Sys2Proof.Machine
end

