-- ==== Sys2Proof/Machine/Queries.lean ====
section
/-!
DEFINITION. The meanings of the two queries on the identifier: ISKNOWN (spec/42_dispatch.md R96) and NAMEOF
(spec/43_output_views.md R110).
-/

namespace Sys2Proof.Machine

/-- ISKNOWN, R96. -/
def execIsknown (id : Id) (s : State) : StepOutcome := .next (s.drive (.isKnown (isKnownIdentifier id)))

/-- NAMEOF, R110. The spec says that a hardware block drives none of these strings on a port, and gives the result no
place. DESIGN CHOICE (log entry 19): the text is held in `State.output` as the result of the last evaluation, and no
output port has a value after it. -/
def execNameof (id : Id) (s : State) : StepOutcome := .next (s.drive (.name (nameOf id)))

end Sys2Proof.Machine
end

