-- ==== Sys2Proof/Machine/Dispatch.lean ====
section
/-!
DEFINITION. One arm per instruction, each one call of its meaning.
-/

namespace Sys2Proof.Machine

def exec (i : Instr) (s : State) : Host.Outcome State Fault Refusal :=
  match i with
  | .engine form p => Sys2Proof.Machine.execEngine form p s
  | .gear form p => Sys2Proof.Machine.execGear form p s
  | .throttle form p => Sys2Proof.Machine.execThrottle form p s
  | .wheel form p => Sys2Proof.Machine.execWheel form p s
  | .brakes form p => Sys2Proof.Machine.execBrakes form p s
  | .traction form p => Sys2Proof.Machine.execTraction form p s
  | .sensors form p => Sys2Proof.Machine.execSensors form p s
  | .killsw form p => Sys2Proof.Machine.execKillsw form p s
  | .fuel form p => Sys2Proof.Machine.execFuel form p s
  | .lights form p => Sys2Proof.Machine.execLights form p s
  | .unmapped id p => Sys2Proof.Machine.execUnmapped id p s
  | .isknown id => Sys2Proof.Machine.execIsknown id s
  | .nameof id => Sys2Proof.Machine.execNameof id s
  | .lonib x => Sys2Proof.Machine.execLonib x s
  | .hinib x => Sys2Proof.Machine.execHinib x s
  | .beu16 hi lo => Sys2Proof.Machine.execBeu16 hi lo s
  | .bes16 hi lo => Sys2Proof.Machine.execBes16 hi lo s
  | .s12 v => Sys2Proof.Machine.execS12 v s

end Sys2Proof.Machine
end

