-- ==== Sys2Proof/Machine/Step.lean ====
section
/-!
DEFINITION. One step is one evaluation (spec/70_reset_and_hazards.md R127): the environment presents its next input,
the addressed block evaluates it, and the output ports carry the result.
-/

namespace Sys2Proof.Machine

/-- One evaluation. A step with no input left to present evaluates the inputs still held (R47, R127;
DEDUCED, log entry 2). -/
def step (s : State) : Host.Outcome State Fault Refusal :=
  match s.nextInput with
  | none => .fault .noInputPresented
  | some (l, t) =>
    match decode l with
    | .error r => .refused (.noPortForm r)
    | .ok i => exec i t

/-- The environment presents the bare table word next, before the inputs it has still to present (log entries 2 and 3). A word of a width no
format of the opcode table has is presented to no block, and the state is unchanged. -/
def State.withFetchWord (s : State) (nbits w : Nat) : State :=
  match tableLine nbits w with
  | some l => { s with pending := l :: s.pending }
  | none => s

end Sys2Proof.Machine
end

