-- ==== Sys2Proof/Machine/Program.lean ====
section
/-!
DEFINITION. The functional view over lists of bytes (spec/10_state.md R33, R36), the line notation and its
pseudo-instruction DECODE (spec/30_encoding.md R72, R73), and programs: lists of lines, evaluated in order and
independently (R16, R72).
-/

namespace Sys2Proof

/-- The mnemonic of a message row (R55). -/
def Message.mnemonic : Message → String
  | .engine => "ENGINE"
  | .gear => "GEAR"
  | .throttle => "THROTTLE"
  | .wheel => "WHEEL"
  | .brakes => "BRAKES"
  | .traction => "TRACTION"
  | .sensors => "SENSORS"
  | .killsw => "KILLSW"
  | .fuel => "FUEL"
  | .lights => "LIGHTS"

end Sys2Proof

namespace Sys2Proof.Machine

/-- The functional view of `decode` (R33, R34): `(id : u32, payload : list of u8)`, of any length. -/
def decodeBytes (id : Id) (bytes : List Byte) : Except InvalidArgument Record :=
  registryDecode id (payloadOfBytes bytes)

/-- The functional view of a decoder (R36): `list of u8 → Option <Variant>`. -/
def messageBytes (m : Message) (bytes : List Byte) : Option Record := runDecoder m (payloadOfBytes bytes)

/-- The instruction a line of the notation stands for. `DECODE` expands to the row of its identifier, or to UNMAPPED
(R73); the number of bytes written is `LEN` (R72). -/
def instrOfSource : SourceLine → Instr
  | .decode id bytes => decodeFrame id (payloadOfBytes bytes)
  | .isknown id => .isknown id
  | .nameof id => .nameof id
  | .message m bytes => .ofMessage m .standalone (payloadOfBytes bytes)
  | .lonib x => .lonib x
  | .hinib x => .hinib x
  | .beu16 hi lo => .beu16 hi lo
  | .bes16 hi lo => .bes16 hi lo
  | .s12 v => .s12 v

/-- The port form of a line of the notation, if it has one: a list longer than 15 bytes has none (R33). -/
def lineOfSource (l : SourceLine) : Option Line :=
  if (instrOfSource l).wellFormed then some (encode (instrOfSource l)) else none

/-- A hexadecimal literal of the notation with a fixed number of digits. -/
def hexLiteral (digits v : Nat) : String := "0x" ++ hexUpper v digits

/-- `[<byte> <byte> ...]`, two hex digits a byte (R72). -/
def byteListText (bytes : List Byte) : String := "[" ++ joinWith " " (bytes.map hex2U) ++ "]"

/-- The text of a line of the notation (R72), as spec/95_test_vectors.md writes it (DESIGN CHOICE on spacing and padding,
log entry 13). -/
def sourceText : SourceLine → String
  | .decode id bytes => "DECODE " ++ hexLiteral 1 id.toNat ++ ", " ++ byteListText bytes
  | .isknown id => "ISKNOWN " ++ hexLiteral 1 id.toNat
  | .nameof id => "NAMEOF " ++ hexLiteral 1 id.toNat
  | .message m bytes => m.mnemonic ++ " " ++ byteListText bytes
  | .lonib x => "LONIB " ++ hexLiteral 2 x.toNat
  | .hinib x => "HINIB " ++ hexLiteral 2 x.toNat
  | .beu16 hi lo => "BEU16 " ++ hexLiteral 2 hi.toNat ++ ", " ++ hexLiteral 2 lo.toNat
  | .bes16 hi lo => "BES16 " ++ hexLiteral 2 hi.toNat ++ ", " ++ hexLiteral 2 lo.toNat
  | .s12 v => "S12 " ++ hexLiteral 3 v.toNat

/-- The result of one instruction: the output it drives, which depends on no state (R49). -/
def resultOf (i : Instr) : Option Output :=
  match exec i State.reset with
  | .next t => t.output
  | .fault _ => none
  | .refused _ => none

/-- The end state of a program: the list of its lines' results (R72, 95 section 3). -/
def programResults (ls : List SourceLine) : List (Option Output) := ls.map (fun l => resultOf (instrOfSource l))

/-- The environment has these lines to present (R16). -/
def State.load (s : State) (ls : List Line) : State := { s with pending := ls }

end Sys2Proof.Machine
end

