-- ==== Sys2Proof/Safety.lean ====
section
/-!
DEFINITION. What claims say of a sound run: which records and outputs the spec allows (spec/10_state.md R20 to R32), and
the invariant that the output ports belong to the inputs held on the input ports (spec/70_reset_and_hazards.md R127).
-/

namespace Sys2Proof.Machine

/-- The ranges of the record's fields that their types do not already give (R23, R24, R27, R29; R85: a fallback label
never carries a key of the ride-mode table). -/
def Record.Legal : Record → Prop
  | .throttle f =>
    ∀ k x, f.rideMode = .rawHex k x → k ∉ ([0xAD, 0x2D, 0x6D, 0xED, 0x89, 0xC9] : List Byte)
  | .wheel f => -2048 ≤ f.tilt ∧ f.tilt ≤ 2047 ∧ -2048 ≤ f.lean ∧ f.lean ≤ 2047
  | .sensors f => -32768 ≤ f.coolantRaw ∧ f.coolantRaw ≤ 32767
  | .fuel f => f.percent ≤ 100
  | _ => True

/-- The outputs the spec allows: `KNOWN` agrees with the variant and `Empty` never stands on the registry's ports (R99,
R100), a hard failure records a length other than 8 (R114), a decoder's output is a message's variant (R36), and signed
results are in range (R77, R78). -/
def Output.Legal : Output → Prop
  | .registry (.ok r) known => r.Legal ∧ r ≠ .empty ∧ (known = false ↔ ∃ raw, r = .unmapped raw)
  | .registry (.error e) _ => e.len ≠ 8
  | .standalone (some r) => r.Legal ∧ r ≠ .empty ∧ ∀ raw, r ≠ .unmapped raw
  | .signed16 v => -32768 ≤ v ∧ v ≤ 32767
  | .signed12 v => -2048 ≤ v ∧ v ≤ 2047
  | _ => True

/-- The outputs belong to the inputs held on the ports (R127): the held line decodes, and evaluating it again changes
nothing (R47). -/
def State.Settled (s : State) (l : Line) : Prop := ∃ i, decode l = .ok i ∧ exec i s = .next s

/-- The invariant of every step: the ports carry an output exactly when inputs have been presented (R37), that output
belongs to those inputs, and it is one the spec allows. -/
def State.Inv (s : State) : Prop :=
  (s.presented = none → s.output = none) ∧
  (∀ l, s.presented = some l → s.Settled l) ∧
  (∀ o, s.output = some o → o.Legal)

end Sys2Proof.Machine
end

