-- ==== Sys2Proof/Certificates/Slice0/Obligations.lean ====
section
/-!
DEFINITION. The statements about the model, each from the rules of spec/ it names.
-/

namespace Sys2Proof.Claims

open Sys2Proof.Machine

/-- The next state is `s` with `o` as its output, the result of the evaluation: the inputs held, and the inputs still to be presented, are
as before. -/
def Drives (i : Instr) (s : State) (o : Output) : Prop := exec i s = .next { s with output := some o }

/-- A message row completes in every state. Standalone it gives its variant from `minLen` bytes on and "no record" below
(R81, R36); through the registry, on eight bytes, it gives the same record with `KNOWN` set. -/
def DecoderRow (row : Form → Payload → Instr) (minLen : Nat) (record : Lanes → Record) : Prop :=
  (∀ s p, minLen ≤ p.len → Drives (row .standalone p) s (.standalone (some (record p.lanes)))) ∧
  (∀ s p, p.len < minLen → Drives (row .standalone p) s (.standalone none)) ∧
  (∀ s p, p.len = 8 → Drives (row .registry p) s (.registry (.ok (record p.lanes)) true))

/-- The ten identifiers of R55. -/
def tenIdentifiers : List Id := [0x120, 0x129, 0x12A, 0x12B, 0x290, 0x450, 0x540, 0x550, 0x552, 0x650]

/-- The payload bits a decoder reads, from the layout tables R57 to R66; every other bit is set to 0. -/
def usedBits : Message → Lanes → Lanes
  | .engine, b => ⟨b.p0, b.p1, b.p2, b.p3 &&& 0x10, b.p4 &&& 0x01, 0, 0, 0⟩
  | .gear, b => ⟨b.p0 &&& 0xF8, 0, 0, 0, 0, 0, 0, 0⟩
  | .throttle, b => ⟨b.p0 &&& 0x02, b.p1, 0, b.p3, 0, 0, 0, 0⟩
  | .wheel, b => ⟨b.p0, b.p1, b.p2, b.p3, 0, b.p5, b.p6, b.p7⟩
  | .brakes, b => ⟨b.p0, b.p1, b.p2, b.p3, 0, 0, 0, 0⟩
  | .traction, b => ⟨0, 0, b.p2 &&& 0x01, 0, 0, 0, 0, 0⟩
  | .sensors, b => ⟨0, b.p1, b.p2, b.p3 &&& 0x0F, b.p4 &&& 0x80, 0, b.p6, b.p7⟩
  | .killsw, b => ⟨b.p0 &&& 0x10, 0, 0, 0, 0, 0, 0, 0⟩
  | .fuel, b => ⟨b.p0, 0, 0, 0, 0, 0, 0, 0⟩
  | .lights, b => ⟨b.p0 &&& 0x68, 0, 0, b.p3 &&& 0x0C, 0, 0, 0, 0⟩

/-- Two payloads of one length that agree on every lane below it (R38, R40). -/
def AgreeBelowLength (p q : Payload) : Prop := p.len = q.len ∧ ∀ i, i < p.len → memRead p i = memRead q i

/-- The `n`-th uppercase hexadecimal digit. -/
def upperDigit (n : Nat) : Char := "0123456789ABCDEF".toList.getD n '?'

/-- The `n`-th lowercase hexadecimal digit. -/
def lowerDigit (n : Nat) : Char := "0123456789abcdef".toList.getD n '?'

/-- Two uppercase digits of a byte (R109). -/
def upperPair (b : Byte) : List Char := [upperDigit (b.toNat / 16), upperDigit (b.toNat % 16)]

/-- The lowercase digits of a byte with at least `m` of them, for `m` 1 or 2 (R108). -/
def lowerByte (m : Nat) (b : Byte) : List Char :=
  if m = 1 ∧ b.toNat < 16 then [lowerDigit b.toNat] else [lowerDigit (b.toNat / 16), lowerDigit (b.toNat % 16)]

/-- The number a binary64 pattern of a normal number or of +0 denotes: sign bit 63, exponent bits 62 to 52 biased by 1023,
fraction bits 51 to 0 (PRESUMED, log entry 8). -/
def binary64Value (bits : BitVec 64) : Rat :=
  let magnitude : Rat :=
    ((2 ^ 52 + (bits.extractLsb' 0 52).toNat : Nat) : Rat) * powTwo ((bits.extractLsb' 52 11).toNat - 1075)
  if bits = 0 then 0 else if bits.getLsbD 63 then -magnitude else magnitude

/-- A positive rational whose binary64 value is a normal number: its exponent is in range, after the carry of a
significand that rounds up to `2^53`. -/
def IsNormalBinary64 (q : Rat) : Prop :=
  -1022 ≤ binaryExponent q ∧
  (binaryExponent q ≤ 1022 ∨ (binaryExponent q = 1023 ∧ binarySignificand q < 2 ^ 53))

/-- The minimum length of each decoder, from R56's table. -/
def minLengths : List (Message × Nat) :=
  [(.engine, 5), (.gear, 1), (.throttle, 4), (.wheel, 8), (.brakes, 4), (.traction, 3), (.sensors, 8), (.killsw, 1),
    (.fuel, 1), (.lights, 4)]

/-- The exact rational of the fuel formula (R92). -/
def fuelX (raw : Byte) : Rat := (256 - (raw.toNat : Rat)) / 255 * 100

end Sys2Proof.Claims

open Sys2Proof Sys2Proof.Machine Sys2Proof.Claims

/-! ## Encoding and step -/

/-- Decoding the line of a well-formed instruction gives the instruction back (all 18 rows, every operand value). -/
def Obligations.DecodeOfEncodeIsInstr : Prop := ∀ i : Instr, i.wellFormed = true → decode (encode i) = .ok i

/-- Every line that decodes is the line of exactly the instruction it decodes to, which is well formed. -/
def Obligations.EncodeOfDecodeIsLine : Prop :=
  ∀ (l : Line) (i : Instr), decode l = .ok i → i.wellFormed = true ∧ encode i = l

/-- Words written out from R54 and the opcode table decode to the instructions they stand for. -/
def Obligations.SpecWordsDecode : Prop :=
  decode ⟨.registry, 0x0000012080BB8400001000000⟩
    = .ok (.engine .registry ⟨8, ⟨0x0B, 0xB8, 0x40, 0x00, 0x01, 0, 0, 0⟩⟩) ∧
  decode ⟨.registry, 0x0000099980102030405060708⟩
    = .ok (.unmapped 0x999 ⟨8, ⟨1, 2, 3, 4, 5, 6, 7, 8⟩⟩) ∧
  decode ⟨.registry, 0x0000065016000000000000000⟩
    = .ok (.lights .registry ⟨1, ⟨0x60, 0, 0, 0, 0, 0, 0, 0⟩⟩) ∧
  decode ⟨.decoder .engine, 0x50BB8400001000000⟩
    = .ok (.engine .standalone ⟨5, ⟨0x0B, 0xB8, 0x40, 0x00, 0x01, 0, 0, 0⟩⟩) ∧
  decode ⟨.nameOf, 0x12A⟩ = .ok (.nameof 0x12A) ∧
  decode ⟨.bigEndianS16, 0x0352⟩ = .ok (.bes16 0x03 0x52) ∧
  decode ⟨.signed12, 0xF9C⟩ = .ok (.s12 0xF9C)

/-- R55: a frame word with one of the ten identifiers, matched on all 32 bits, selects that identifier's row, and every
other identifier the row UNMAPPED, whatever the length. -/
def Obligations.FrameWordSelectsRowByIdentifier : Prop :=
  ∀ p : Payload, p.len < 16 →
    decode (registryLine 0x120 p) = .ok (.engine .registry p) ∧
    decode (registryLine 0x129 p) = .ok (.gear .registry p) ∧
    decode (registryLine 0x12A p) = .ok (.throttle .registry p) ∧
    decode (registryLine 0x12B p) = .ok (.wheel .registry p) ∧
    decode (registryLine 0x290 p) = .ok (.brakes .registry p) ∧
    decode (registryLine 0x450 p) = .ok (.traction .registry p) ∧
    decode (registryLine 0x540 p) = .ok (.sensors .registry p) ∧
    decode (registryLine 0x550 p) = .ok (.killsw .registry p) ∧
    decode (registryLine 0x552 p) = .ok (.fuel .registry p) ∧
    decode (registryLine 0x650 p) = .ok (.lights .registry p) ∧
    ∀ id : Id, id ∉ tenIdentifiers → decode (registryLine id p) = .ok (.unmapped id p)

/-- A line is refused exactly when its word is wider than the addressed block's ports, and the step then refuses it by
that name (decision D2, log entry 7). -/
def Obligations.OnlyTooWideWordsAreRefused : Prop :=
  ∀ (l : Line) (s : State) (ls : List Line), s.pending = l :: ls →
    ((∃ r, step s = .refused r) ↔ 2 ^ l.block.width ≤ l.word.toNat) ∧
    (2 ^ l.block.width ≤ l.word.toNat → step s = .refused (.noPortForm (.strayBits l.block l.block.width)))

/-- A step takes the environment's next line from `pending`, holds it on the input ports, and runs the instruction it
decodes to. With nothing left to present it runs the line still held, and before any input it faults (log entries 1
and 2). -/
def Obligations.StepRunsTheDecodedInstruction : Prop :=
  (∀ (s : State) (l : Line) (ls : List Line) (i : Instr), s.pending = l :: ls → decode l = .ok i →
    step s = exec i { s with pending := ls, presented := some l }) ∧
  (∀ (s : State) (l : Line) (i : Instr), s.pending = [] → s.presented = some l → decode l = .ok i →
    step s = exec i s) ∧
  (∀ s : State, s.pending = [] → s.presented = none → step s = .fault .noInputPresented)

/-! ## Bit primitives -/

/-- R74: the low nibble, `x & 0x0F`. -/
def Obligations.LonibIsLowNibble : Prop :=
  ∀ (x : Byte) (s : State), Drives (.lonib x) s (.nibble (BitVec.ofNat 4 (x.toNat % 16))) ∧
    ((BitVec.ofNat 4 (x.toNat % 16)).setWidth 8 = x &&& 0x0F)

/-- R75: the high nibble, `x >> 4`. -/
def Obligations.HinibIsHighNibble : Prop :=
  ∀ (x : Byte) (s : State), Drives (.hinib x) s (.nibble (BitVec.ofNat 4 (x.toNat / 16))) ∧
    ((BitVec.ofNat 4 (x.toNat / 16)).setWidth 8 = x >>> 4)

/-- R76: `(hi << 8) | lo`, which equals `256·hi + lo`. -/
def Obligations.Beu16IsBigEndianUnsigned : Prop :=
  ∀ (hi lo : Byte) (s : State),
    Drives (.beu16 hi lo) s (.unsigned16 ((hi.setWidth 16 <<< 8) ||| lo.setWidth 16)) ∧
    ((hi.setWidth 16 <<< 8) ||| lo.setWidth 16 : U16).toNat = 256 * hi.toNat + lo.toNat

/-- R77: the unsigned assembly, reinterpreted from 32768 on as `u - 65536`, which is the two's-complement value. -/
def Obligations.Bes16IsBigEndianSigned : Prop :=
  ∀ (hi lo : Byte) (s : State), ∃ v : Int,
    Drives (.bes16 hi lo) s (.signed16 v) ∧
    (256 * hi.toNat + lo.toNat < 32768 → v = 256 * hi.toNat + lo.toNat) ∧
    (32768 ≤ 256 * hi.toNat + lo.toNat → v = 256 * (hi.toNat : Int) + lo.toNat - 65536) ∧
    v = (hi ++ lo : U16).toInt ∧ -32768 ≤ v ∧ v ≤ 32767

/-- R78: the 12-bit sign extension, its two other forms, its range, and the round trip. -/
def Obligations.S12IsTwosComplement : Prop :=
  ∀ (v : U12) (s : State), ∃ r : Int,
    Drives (.s12 v) s (.signed12 r) ∧
    (v.getLsbD 11 = true → r = (v.toNat : Int) - 4096) ∧
    (v.getLsbD 11 = false → r = v.toNat) ∧
    r = v.toInt ∧
    r = -((v &&& 0x800).toNat : Int) + (v &&& 0x7FF).toNat ∧
    (v.getLsbD 11 = true → r = (v.setWidth 32 ||| 0xFFFFF000#32).toInt) ∧
    -2048 ≤ r ∧ r ≤ 2047 ∧
    (r + 4096) % 4096 = v.toNat

/-- R42: the Lights word is little-endian; word bit `8k + j` is bit `j` of `b[k]`. -/
def Obligations.LightsWordIsLittleEndian : Prop :=
  ∀ (b : Lanes) (k j : Nat), k < 4 → j < 8 →
    (littleEndianU32 b.p0 b.p1 b.p2 b.p3).getLsbD (8 * k + j) = ((b.toList.getD k 0).getLsbD j)

/-! ## The ten decoders -/

/-- R82: ENGINE, with the inverted kill bit. -/
def Obligations.EngineRecord : Prop :=
  DecoderRow .engine 5 fun b =>
    .engine ⟨b.p0 ++ b.p1, b.p2, if b.p3.getLsbD 4 then 0 else 1, BitVec.ofBool (b.p4.getLsbD 0)⟩

/-- R83: GEAR, the raw nibble and the clutch bit. -/
def Obligations.GearRecord : Prop :=
  DecoderRow .gear 1 fun b => .gear ⟨BitVec.ofNat 4 (b.p0.toNat / 16), b.p0.getLsbD 3⟩

/-- R84 with R85: THROTTLE and the ride-mode table, exact match on the key and no other mapping, with the port codes. -/
def Obligations.ThrottleRecord : Prop :=
  ∃ mode : Byte → Byte → RideMode,
    DecoderRow .throttle 4 (fun b =>
      .throttle ⟨!b.p0.getLsbD 1, BitVec.ofBool (b.p1.getLsbD 6), mode b.p1 b.p3⟩) ∧
    (∀ x, mode 0xAD x = .rain ∧ mode 0x2D x = .street ∧ mode 0x6D x = .sport ∧ mode 0xED x = .track ∧
      mode 0x89 x = .unknown ∧ mode 0xC9 x = .off) ∧
    (∀ k x, k ∉ ([0xAD, 0x2D, 0x6D, 0xED, 0x89, 0xC9] : List Byte) → mode k x = .rawHex k x) ∧
    (∀ k x, RideMode.rain.code = 0 ∧ RideMode.street.code = 1 ∧ RideMode.sport.code = 2 ∧ RideMode.track.code = 3 ∧
      RideMode.unknown.code = 4 ∧ RideMode.off.code = 5 ∧ (RideMode.rawHex k x).code = 6)

/-- R86: WHEEL, the two angles as the two's-complement values of `(b[5] << 4) | hiNibble(b[6])` and
`(loNibble(b[6]) << 8) | b[7]`. -/
def Obligations.WheelRecord : Prop :=
  DecoderRow .wheel 8 fun b =>
    .wheel ⟨b.p0 ++ b.p1, b.p2 ++ b.p3,
      ((b.p5.setWidth 12 <<< 4) ||| (b.p6.setWidth 12 >>> 4) : U12).toInt,
      ((b.p6.setWidth 12 <<< 8) ||| b.p7.setWidth 12 : U12).toInt⟩

/-- R87: BRAKES. -/
def Obligations.BrakesRecord : Prop :=
  DecoderRow .brakes 4 fun b => .brakes ⟨b.p0 ++ b.p1, b.p2 ++ b.p3⟩

/-- R88: TRACTION. -/
def Obligations.TractionRecord : Prop :=
  DecoderRow .traction 3 fun b => .traction ⟨BitVec.ofBool (b.p2.getLsbD 0)⟩

/-- R89: SENSORS; bit 7 of `b[1]` is both `rpm[15]` and the kickstand bit, so `rpm ≥ 32768` exactly when the kickstand
is not up. -/
def Obligations.SensorsRecord : Prop :=
  DecoderRow .sensors 8 (fun b =>
    .sensors ⟨b.p1 ++ b.p2, BitVec.ofNat 4 (b.p3.toNat % 16), !b.p1.getLsbD 7, b.p4.getLsbD 7,
      (b.p6 ++ b.p7 : U16).toInt⟩) ∧
  ∀ b : Lanes, 32768 ≤ (b.p1 ++ b.p2 : U16).toNat ↔ (!b.p1.getLsbD 7) = false

/-- R91: KILLSW; a set bit means running. -/
def Obligations.KillswRecord : Prop :=
  DecoderRow .killsw 1 fun b => .killsw ⟨b.p0 &&& 0x10 ≠ 0⟩

/-- R92: FUEL, the integer nearest to `(256 - b[0]) / 255 * 100`, within 0..100, which is also
`floor((200·(256 − b[0]) + 255) / 510)`. -/
def Obligations.FuelRecord : Prop :=
  DecoderRow .fuel 1 (fun b => .fuel ⟨(200 * (256 - b.p0.toNat) + 255) / 510⟩) ∧
  ∀ raw : Byte, (200 * (256 - raw.toNat) + 255) / 510 ≤ 100 ∧
    |(((200 * (256 - raw.toNat) + 255) / 510 : Nat) : Rat) - fuelX raw| < 1 / 2

/-- R94: LIGHTS; high beam is bit 5 and low beam bit 6 of `b[0]`, the broken flags bits 2 and 3 of `b[3]`. -/
def Obligations.LightsRecord : Prop :=
  DecoderRow .lights 4 fun b =>
    .lights ⟨b.p0.getLsbD 3, b.p0.getLsbD 5, b.p0.getLsbD 6, b.p3.getLsbD 2, b.p3.getLsbD 3⟩

/-- The properties of the fuel formula that the spec derives by enumeration (41_decoders.md section on fuel rounding): no
value is within 1/102 of a half-integer, the rounded value is within 0..100 without the clamp, and evaluating it in
binary64 in the written order gives the same percentage (binary64 is PRESUMED, log entry 8). -/
def Obligations.FuelRoundingHasNoTies : Prop :=
  ∀ raw : Byte,
    (∀ k : Int, 1 / 102 ≤ |fuelX raw - (k + 1 / 2)|) ∧
    (0 ≤ roundNearest (fuelX raw) ∧ roundNearest (fuelX raw) ≤ 100) ∧
    roundNearest (nearestBinary64 (nearestBinary64 ((256 - (raw.toNat : Rat)) / 255) * 100)) = fuelPercent raw

/-- R67: a bit that the layout tables R57 to R66 mark unused has no effect on any output of its decoder, standalone or
through the registry; the fallback record carries all eight bytes. -/
def Obligations.UnusedBitsHaveNoEffect : Prop :=
  (∀ (m : Message) (f : Form) (n : Nat) (b c : Lanes) (s : State), usedBits m b = usedBits m c →
    exec (.ofMessage m f ⟨n, b⟩) s = exec (.ofMessage m f ⟨n, c⟩) s) ∧
  (∀ (id : Id) (b c : Lanes) (s : State), id ∉ tenIdentifiers →
    exec (.unmapped id ⟨8, b⟩) s = exec (.unmapped id ⟨8, c⟩) s → b = c)

/-- No row reads a lane at or above `LEN` (the spec derives it, 20_memory.md section 1): payloads of one length that agree
below it give the same next state. -/
def Obligations.LanesAboveLengthAreNotRead : Prop :=
  ∀ (p q : Payload) (s : State), AgreeBelowLength p q →
    (∀ (m : Message) (f : Form), exec (.ofMessage m f p) s = exec (.ofMessage m f q) s) ∧
    (∀ id : Id, exec (.unmapped id p) s = exec (.unmapped id q) s)

/-! ## The registry -/

/-- A length other than 8 raises InvalidArgument(LEN), for a known and an unknown identifier alike: `ERR = 1`, `TAG = 15`,
no record, `KNOWN` still the query's value (the content of R97 and R114); a standalone decoder never raises it. That the
evaluation answers a next state, so that the machine goes on, is the model's reading (DEDUCED, log entry 1). -/
def Obligations.BadLengthRaisesInvalidArgument : Prop :=
  (∀ (m : Message) (p : Payload) (s : State), ∃ r, Drives (.ofMessage m .standalone p) s (.standalone r)) ∧
  ∀ (id : Id) (p : Payload) (s : State), p.len ≠ 8 →
    ∃ o : Output, Drives (decodeFrame id p) s o ∧
      o = .registry (.error ⟨p.len⟩) (decide (id ∈ tenIdentifiers)) ∧
      o.errPort = some 1 ∧ o.tagPort = some 15 ∧
      o.knownPort = some (BitVec.ofBool (decide (id ∈ tenIdentifiers))) ∧ o.record? = none

/-- R115: a standalone decoder reports "no record" exactly below its minimum length (R56's table), with `VALID = 0` and no
fault; under `decode` no record of that kind appears. -/
def Obligations.NoRecordExactlyBelowMinimumLength : Prop :=
  ∀ (m : Message) (n : Nat) (p : Payload) (s : State),
    (m, n) ∈ minLengths →
    (∃ r, Drives (.ofMessage m .standalone p) s (.standalone r) ∧ (r = none ↔ p.len < n) ∧
      (Output.standalone r).validPort = some (if p.len < n then 0 else 1) ∧ (Output.standalone r).errPort = none) ∧
    ∀ known, ¬ Drives (.ofMessage m .registry p) s (.registry (.ok .empty) known)

/-- R99: the fallback on an unknown identifier carries the eight bytes unchanged; `ERR = 0`, `TAG = 10`, `KNOWN = 0`. -/
def Obligations.UnknownIdentifierIsUnmapped : Prop :=
  ∀ (id : Id) (p : Payload) (s : State), id ∉ tenIdentifiers → p.len = 8 →
    ∃ o : Output, Drives (.unmapped id p) s o ∧ o = .registry (.ok (.unmapped p.lanes)) false ∧
      o.errPort = some 0 ∧ o.tagPort = some 10 ∧ o.knownPort = some 0

/-- `decode` is total on eight bytes and never gives the empty record (the spec derives it, 42_dispatch.md): a record with
`ERR = 0` and `TAG` 0 to 10, and for a known identifier the record its decoder gives standalone, with that message's
code. -/
def Obligations.RegistryIsTotalAndNeverEmpty : Prop :=
  (∀ (id : Id) (p : Payload) (s : State), p.len = 8 →
    ∃ (r : Record) (k : Bool) (t : BitVec 4), Drives (decodeFrame id p) s (.registry (.ok r) k) ∧ r ≠ .empty ∧
      (Output.registry (.ok r) k).errPort = some 0 ∧
      (Output.registry (.ok r) k).tagPort = some t ∧ t.toNat ≤ 10) ∧
  (∀ (m : Message) (p : Payload) (s : State), p.len = 8 →
    ∃ r : Record, Drives (.ofMessage m .standalone p) s (.standalone (some r)) ∧
      Drives (.ofMessage m .registry p) s (.registry (.ok r) true) ∧
      Message.all[r.tag.toNat]? = some m)

/-- Evaluating all ten decoders in parallel and selecting one output by identifier gives what the selecting registry
gives (the spec derives it, 42_dispatch.md). -/
def Obligations.ParallelMultiplexerIsEquivalent : Prop :=
  ∀ (id : Id) (p : Payload), parallelDecode id p = registryDecode id p

/-- ISKNOWN is membership in the ten identifiers on all 32 bits (R96), and the port `KNOWN` carries it on every registry
evaluation, whatever the length (R34). That an evaluation of a bad length answers a next state is the model's reading
(DEDUCED, log entry 1). -/
def Obligations.IsknownIsMembership : Prop :=
  ∀ (id : Id) (s : State),
    Drives (.isknown id) s (.isKnown (decide (id ∈ tenIdentifiers))) ∧
    ∀ p : Payload, ∃ o : Output, Drives (decodeFrame id p) s o ∧
      o.knownPort = some (BitVec.ofBool (decide (id ∈ tenIdentifiers)))

/-! ## Text -/

/-- R110, R111: NAMEOF gives the two assigned labels, the fixed but OPEN label of each other known identifier, and
"Unknown (0x…)" with uppercase digits, at least `ID_HEX_MIN_DIGITS` of them, which is 1, 2 or 3. That the text is held
as the output of the step, where the spec gives it no place, is the model's choice (log entry 19). -/
def Obligations.NameofGivesTheLabel : Prop :=
  (1 ≤ Config.idHexMinDigits ∧ Config.idHexMinDigits ≤ 3) ∧
  ∀ (id : Id) (s : State), ∃ t : String, Drives (.nameof id) s (.name t) ∧
    (id = 0x12A → t = "Throttle/Mode") ∧
    (id = 0x290 → t = "Brakes") ∧
    (id ∈ tenIdentifiers → id ≠ 0x12A → id ≠ 0x290 → t = Config.openChannelName id) ∧
    (id ∉ tenIdentifiers → t = "Unknown (0x" ++ hexUpper id.toNat Config.idHexMinDigits ++ ")")

/-- What `hexUpper` and `hexLower` write, R108: the hexadecimal digits of the value, most significant first, at least `m`
of them, and no leading zero where there are more. -/
def Obligations.HexDigitsAreTheValue : Prop :=
  ∀ (v m : Nat), v < 2 ^ 32 → 1 ≤ m → m ≤ 8 →
    (hexUpper v m).toList = (hexDigits v m).map upperDigit ∧
    (hexLower v m).toList = (hexDigits v m).map lowerDigit ∧
    (∀ d ∈ hexDigits v m, d < 16) ∧
    (hexDigits v m).foldl (fun a d => 16 * a + d) 0 = v ∧
    m ≤ (hexDigits v m).length ∧
    (m < (hexDigits v m).length → (hexDigits v m).head? ≠ some 0)

/-- R107, R108: the ride-mode texts; the fallback label in lowercase with one fixed padding, 1 or 2 digits. -/
def Obligations.RideModeLabelText : Prop :=
  (Config.rideHexMinDigits = 1 ∨ Config.rideHexMinDigits = 2) ∧
  ∀ m : Nat, m = 1 ∨ m = 2 →
    rideModeLabel m .rain = "Rain" ∧ rideModeLabel m .street = "Street" ∧ rideModeLabel m .sport = "Sport" ∧
    rideModeLabel m .track = "Track" ∧ rideModeLabel m .unknown = "Unknown" ∧ rideModeLabel m .off = "Off" ∧
    ∀ k x : Byte, (rideModeLabel m (.rawHex k x)).toList
      = "0x".toList ++ lowerByte m k ++ " / 0x".toList ++ lowerByte m x

/-- R109: the fallback's text is the eight bytes in index order, two uppercase digits each, one space between, 23
characters. -/
def Obligations.UnmappedTextFormat : Prop :=
  ∀ b : Lanes,
    (unmappedText b).toList =
      upperPair b.p0 ++ ' ' :: upperPair b.p1 ++ ' ' :: upperPair b.p2 ++ ' ' :: upperPair b.p3 ++
      ' ' :: upperPair b.p4 ++ ' ' :: upperPair b.p5 ++ ' ' :: upperPair b.p6 ++ ' ' :: upperPair b.p7 ∧
    (unmappedText b).length = 23

/-- The fallback's text loses nothing: equal texts come from equal payloads. -/
def Obligations.UnmappedTextIsInjective : Prop := ∀ b c : Lanes, unmappedText b = unmappedText c → b = c

/-- The keys of each variant and their values (R106). The floating-point value of `coolantTempC` is the exact rational with
its binary64 pattern, a format that is PRESUMED (log entry 8). -/
def Obligations.ViewHasTheKeysOfTheVariant : Prop :=
  (∀ f, view (.engine f) = [("rpm", .int f.rpm.toNat), ("throttle", .int f.throttle.toNat),
    ("killSwitch", .int f.killSwitch.toNat), ("throttleMap", .int f.throttleMap.toNat)]) ∧
  (∀ f, view (.gear f) = [("gear", .int f.gear.toNat), ("clutchIn", .bool f.clutchIn)]) ∧
  (∀ f, view (.throttle f) = [("throttleOpen", .bool f.throttleOpen), ("requestedMap", .int f.requestedMap.toNat),
    ("rideMode", .str (rideModeLabel Config.rideHexMinDigits f.rideMode))]) ∧
  (∀ f, view (.wheel f) = [("frontWheel", .int f.frontWheel.toNat), ("rearWheel", .int f.rearWheel.toNat),
    ("tilt", .int f.tilt), ("lean", .int f.lean)]) ∧
  (∀ f, view (.brakes f) = [("frontBrake", .int f.frontBrake.toNat), ("rearBrake", .int f.rearBrake.toNat)]) ∧
  (∀ f, view (.traction f) = [("buttonState", .int f.buttonState.toNat)]) ∧
  (∀ f, view (.sensors f) = [("rpm", .int f.rpm.toNat), ("gear", .int f.gear.toNat),
    ("kickstandUp", .bool f.kickstandUp), ("kickstandError", .bool f.kickstandError),
    ("coolantTempC", .float ((f.coolantRaw : Rat) / 10) (binary64Bits ((f.coolantRaw : Rat) / 10)))]) ∧
  (∀ f, view (.killsw f) = [("running", .bool f.running)]) ∧
  (∀ f, view (.fuel f) = [("percent", .int f.percent)]) ∧
  (∀ f, view (.lights f) = [("drlActive", .bool f.drlActive), ("highBeamActive", .bool f.highBeamActive),
    ("lowBeamActive", .bool f.lowBeamActive), ("highBeamBroken", .bool f.highBeamBroken),
    ("lowBeamBroken", .bool f.lowBeamBroken)]) ∧
  (∀ b, view (.unmapped b) = [("unmapped", .str (unmappedText b))]) ∧
  view .empty = []

/-- The binary64 number of the view, `binary64Bits`, and the rounding function `nearestBinary64` (PRESUMED, log entry 8).
For a positive rational the rounded value has a 53-bit significand and is within half a unit of it. Where that value is a
normal number the pattern denotes it, with sign bit 0 and the exponent biased by 1023; the pattern of the negation differs
in the sign bit alone. Zero is the pattern 0. Every value of the coolant view is covered. -/
def Obligations.Binary64RoundsToNearest : Prop :=
  (∀ q : Rat, 0 < q →
    powTwo (binaryExponent q) ≤ q ∧ q < powTwo (binaryExponent q + 1) ∧
    2 ^ 52 ≤ binarySignificand q ∧ binarySignificand q ≤ 2 ^ 53 ∧
    nearestBinary64 q = binarySignificand q * powTwo (binaryExponent q - 52) ∧
    nearestBinary64 (-q) = -nearestBinary64 q ∧
    |nearestBinary64 q - q| ≤ powTwo (binaryExponent q - 53)) ∧
  (∀ q : Rat, 0 < q → IsNormalBinary64 q →
    (binary64Bits q).getLsbD 63 = false ∧
    (binarySignificand q < 2 ^ 53 →
      (((binary64Bits q).extractLsb' 52 11).toNat : Int) = binaryExponent q + 1023 ∧
      (((binary64Bits q).extractLsb' 0 52).toNat : Int) = binarySignificand q - 2 ^ 52) ∧
    (binarySignificand q = 2 ^ 53 →
      (((binary64Bits q).extractLsb' 52 11).toNat : Int) = binaryExponent q + 1024 ∧
      ((binary64Bits q).extractLsb' 0 52).toNat = 0) ∧
    binary64Value (binary64Bits q) = nearestBinary64 q ∧
    binary64Bits (-q) = binary64Bits q ||| 0x8000000000000000 ∧
    binary64Value (binary64Bits (-q)) = nearestBinary64 (-q)) ∧
  (binary64Bits 0 = 0 ∧ nearestBinary64 0 = 0 ∧ binary64Value 0 = 0) ∧
  ∀ raw : Int, -32768 ≤ raw → raw ≤ 32767 →
    binary64Value (binary64Bits ((raw : Rat) / 10)) = nearestBinary64 ((raw : Rat) / 10)

/-- R90: the coolant temperature of every SENSORS record is exactly a tenth of the signed value, within −3276.8 to
3276.7. -/
def Obligations.CoolantIsTenthsOfADegree : Prop :=
  ∀ (p : Payload) (s : State), 8 ≤ p.len →
    ∃ f : SensorFrame, Drives (.sensors .standalone p) s (.standalone (some (.sensors f))) ∧
      10 * coolantTempC f = ((p.lanes.p6 ++ p.lanes.p7 : U16).toInt : Rat) ∧
      -32768 / 10 ≤ coolantTempC f ∧ coolantTempC f ≤ 32767 / 10

/-! ## Ports and the functional view -/

/-- R34, R35: the port values carry the record. Whatever values the buses of the other variants carry, a consumer that
reads `TAG` and the buses gets back every record within the ranges of R21 to R31. -/
def Obligations.PortsCarryTheRecord : Prop :=
  ∀ (r : Record) (bus : (b : Bus) → BitVec b.width), r.Legal →
    (∀ (b : Bus) (v : BitVec b.width), r.bus b = some v → bus b = v) → recordOfPorts r.tag bus = some r

/-- A reader of port values refuses every code that stands for no record: `TAG` 12 to 14 and `RM` 7, which are never produced
(R70 (c), 93 I17), and `TAG` 15, the code of the hard failure, which is produced with no record (R20, R34). No record has
one of these tags, and no ride mode the code 7. -/
def Obligations.PortCodesWithoutRecordAreRefused : Prop :=
  (∀ (t : BitVec 4) (bus : (b : Bus) → BitVec b.width), 12 ≤ t.toNat → recordOfPorts t bus = none) ∧
  (∀ b1 b3 : Byte, RideMode.ofPorts 7 b1 b3 = none) ∧
  (∀ r : Record, r.tag.toNat ≤ 11) ∧
  (∀ m : RideMode, m.code.toNat ≤ 6)

/-- The functional view over lists of bytes, of any length. Byte `i` of the list is `b[i]` and `LEN` is the list's length
(R33, R38).
`decode` (R34, R97): a list of any length other than 8, however long, raises InvalidArgument with that length; eight bytes
give a record that is not `Empty` (the spec derives that, 42_dispatch.md), for a known identifier the record its decoder
gives; and the registry row drives that result (a next state on a bad length too: DEDUCED, log entry 1).
A decoder (R36, R81): "no record" exactly below its minimum length, else a record of its own variant that depends only on
the bytes below that length, so a longer list changes nothing; and the standalone row drives that result. -/
def Obligations.FunctionalViewReadsTheList : Prop :=
  (∀ bytes : List Byte,
    (payloadOfBytes bytes).len = bytes.length ∧
    ∀ i, i < 8 → memRead (payloadOfBytes bytes) i = bytes[i]?) ∧
  (∀ (bytes : List Byte) (id : Id),
    (bytes.length ≠ 8 → decodeBytes id bytes = .error ⟨bytes.length⟩) ∧
    (bytes.length = 8 → ∃ r, decodeBytes id bytes = .ok r ∧ r ≠ .empty ∧
      ∀ m, messageOf id = some m → messageBytes m bytes = some r) ∧
    ∀ s, Drives (decodeFrame id (payloadOfBytes bytes)) s
      (.registry (decodeBytes id bytes) (decide (id ∈ tenIdentifiers)))) ∧
  (∀ (m : Message) (n : Nat) (bytes : List Byte), (m, n) ∈ minLengths →
    (messageBytes m bytes = none ↔ bytes.length < n) ∧
    (∀ r, messageBytes m bytes = some r → Message.all[r.tag.toNat]? = some m) ∧
    (n ≤ bytes.length → messageBytes m bytes = messageBytes m (bytes.take n)) ∧
    ∀ s, Drives (.ofMessage m .standalone (payloadOfBytes bytes)) s (.standalone (messageBytes m bytes)))

/-- A line of the notation whose list has at most 15 bytes has a port form, which decodes to the instruction the line
stands for; a longer list has none (R33, R72). -/
def Obligations.SourceLineHasPortForm : Prop :=
  ∀ src : SourceLine,
    (∀ l, lineOfSource src = some l → decode l = .ok (instrOfSource src)) ∧
    (lineOfSource src = none ↔
      (∃ id bytes, src = .decode id bytes ∧ 16 ≤ bytes.length) ∨
      (∃ m bytes, src = .message m bytes ∧ 16 ≤ bytes.length))

/-! ## Frames, invariants, runs -/

/-- The frame of all 18 instructions: an evaluation changes nothing but the output ports, and always drives them. The
inputs held, the payload among them, and the inputs still to be presented (the model's list, log entry 2) are as before
(R38, R47). -/
def Obligations.InstructionsChangeOnlyTheOutput : Prop :=
  ∀ (i : Instr) (s t : State), exec i s = .next t →
    t.pending = s.pending ∧ t.presented = s.presented ∧ ∃ o, t.output = some o ∧ o.Legal

/-- At reset no input is held and the outputs carry no value: R37 calls them unspecified, and that they are absent is the
model's reading (DEDUCED, log entry 14). The first evaluation after power-up behaves exactly like any later one (R124), the
inputs being the list the environment loads into State (log entry 2). -/
def Obligations.FirstEvaluationIsLikeAnyOther : Prop :=
  (State.reset.presented = none ∧ State.reset.output = none) ∧
  ∀ (s : State) (ls : List Line), ls ≠ [] → step (s.load ls) = step (State.reset.load ls)

/-- The reset state meets the invariant. -/
def Obligations.ResetMeetsInv : Prop := State.reset.Inv

/-- Every step keeps the invariant: an output exactly when an input is held, belonging to that input, and one the spec
allows (ranges of R21 to R31, never the empty record from the registry). The held inputs and the absent output are the
model's state (log entries 2 and 14), and a failed evaluation is a step (log entry 1). -/
def Obligations.StepKeepsInv : Prop := ∀ s t : State, s.Inv → step s = .next t → t.Inv

/-- Reading the inputs changes nothing of them, and an evaluation is idempotent: evaluated again on the same inputs it gives
the same state (the content of R47). That a further step with none left to present evaluates the inputs still held, and so
changes nothing, is the model's reading (DEDUCED, log entry 2). -/
def Obligations.EvaluationIsIdempotent : Prop :=
  (∀ (i : Instr) (s t : State), exec i s = .next t →
    exec i t = .next t ∧ t.presented = s.presented ∧ t.pending = s.pending) ∧
  (∀ s t : State, step s = .next t → t.pending = [] → step t = .next t)

/-- An output depends only on the inputs of its own evaluation, not on any earlier one (R49); the inputs are presented from
the environment's list (log entry 2). -/
def Obligations.OutputDependsOnItsInputsOnly : Prop :=
  ∀ (s₁ s₂ t₁ : State) (l : Line) (ls₁ ls₂ : List Line), s₁.pending = l :: ls₁ → s₂.pending = l :: ls₂ →
    step s₁ = .next t₁ →
    ∃ t₂, step s₂ = .next t₂ ∧ t₂.output = t₁.output ∧ t₂.presented = some l ∧ t₂.pending = ls₂

/-- A program runs to its end from any state, whatever failures stand in it, and the ports then show the last line's
result, the same as for that line alone (R49, R119, R127). The lines are loaded into State by the environment (log entry 2),
and that a bad length does not stop the run is the model's reading (DEDUCED, log entry 1). -/
def Obligations.ProgramEndsWithTheLastLinesResult : Prop :=
  ∀ (s : State) (ls : List Line) (l : Line) (i : Instr),
    (∀ x ∈ ls, ∃ j, decode x = .ok j) → decode l = .ok i →
    Sys2Proof.core.run (ls.length + 1) (s.load (ls ++ [l]))
      = .next { pending := [], presented := some l, output := resultOf i }

/-- A failed evaluation leaves the next one unaffected (R119): after a line that raises InvalidArgument the next line gives
exactly what it gives without it. That the failed evaluation answers a next state is the model's reading (DEDUCED, log
entry 1), and the lines stand in the environment's list (log entry 2). -/
def Obligations.FailureIsNotSticky : Prop :=
  ∀ (s t : State) (bad l : Line) (ls : List Line) (e : InvalidArgument) (k : Bool),
    s.pending = bad :: l :: ls → step s = .next t → t.output = some (.registry (.error e) k) →
    step t = step (s.load (l :: ls))
end

