-- ==== Sys2Proof/Laws/State.lean ====
section
/-!
SUPPORT. One lemma per field per update of the state.
-/

namespace Sys2Proof.Machine

@[simp] theorem State.drive_pending (s : State) (o : Output) : (s.drive o).pending = s.pending := rfl

@[simp] theorem State.drive_presented (s : State) (o : Output) : (s.drive o).presented = s.presented := rfl

@[simp] theorem State.drive_output (s : State) (o : Output) : (s.drive o).output = some o := rfl

@[simp] theorem State.drive_drive (s : State) (o o' : Output) : (s.drive o).drive o' = s.drive o' := rfl

@[simp] theorem State.reset_pending : State.reset.pending = [] := rfl

@[simp] theorem State.reset_presented : State.reset.presented = none := rfl

@[simp] theorem State.reset_output : State.reset.output = none := rfl

/-- Driving the value already driven changes nothing. -/
theorem State.drive_eq_self {s : State} {o : Output} (h : s.output = some o) : s.drive o = s := by
  cases s; cases h; rfl

theorem State.nextInput_cons {s : State} {l : Line} {ls : List Line} (h : s.pending = l :: ls) :
    s.nextInput = some (l, { s with pending := ls, presented := some l }) := by
  simp [State.nextInput, h]

theorem State.nextInput_held {s : State} {l : Line} (h : s.pending = []) (hl : s.presented = some l) :
    s.nextInput = some (l, s) := by
  simp [State.nextInput, h, hl]

theorem State.nextInput_none {s : State} (h : s.pending = []) (hl : s.presented = none) : s.nextInput = none := by
  simp [State.nextInput, h, hl]

/-- The input a step evaluates is held on the input ports, and the outputs are as they were. -/
theorem State.nextInput_spec {s t : State} {l : Line} (h : s.nextInput = some (l, t)) :
    t.presented = some l ∧ t.output = s.output := by
  unfold State.nextInput at h
  split at h
  · cases h; exact ⟨rfl, rfl⟩
  · split at h
    · rename_i hp; cases h; exact ⟨hp, rfl⟩
    · cases h

end Sys2Proof.Machine
end

