-- ==== Sys2Proof/Laws/Ops.lean ====
section
/-!
SUPPORT. One lemma per shared operation: what it drives. Every meaning drives one output and changes nothing else.
-/

namespace Sys2Proof.Machine

theorem evalRegistry_eq (id : Id) (p : Payload) (s : State) :
    evalRegistry id p s = .next (s.drive (.registry (registryDecode id p) (isKnownIdentifier id))) := by
  unfold evalRegistry raiseInvalidArgument
  cases registryDecode id p <;> rfl

theorem registryDecode_bad_length {id : Id} {p : Payload} (h : p.len ≠ 8) : registryDecode id p = .error ⟨p.len⟩ := by
  simp [registryDecode, registryLength, h]

theorem registryDecode_length_eight {id : Id} {p : Payload} (h : p.len = 8) :
    registryDecode id p = .ok (selectRecord id p) := by
  simp [registryDecode, registryLength, h]

theorem evalMessage_registry (m : Message) (p : Payload) (s : State) :
    evalMessage m .registry p s =
      .next (s.drive (.registry (registryDecode m.identifier p) (isKnownIdentifier m.identifier))) :=
  evalRegistry_eq m.identifier p s

theorem evalMessage_standalone (m : Message) (p : Payload) (s : State) :
    evalMessage m .standalone p s = .next (s.drive (.standalone (runDecoder m p))) := rfl

theorem exec_ofMessage (m : Message) (f : Form) (p : Payload) (s : State) :
    exec (.ofMessage m f p) s = evalMessage m f p s := by
  cases m <;> rfl

/-- What the output of an instruction is, whatever the state. -/
theorem exec_drives (i : Instr) : ∃ o, ∀ s, exec i s = .next (s.drive o) := by
  cases i
  case unmapped id p => exact ⟨_, evalRegistry_eq id p⟩
  case isknown id => exact ⟨_, fun _ => rfl⟩
  case nameof id => exact ⟨_, fun _ => rfl⟩
  case lonib x => exact ⟨_, fun _ => rfl⟩
  case hinib x => exact ⟨_, fun _ => rfl⟩
  case beu16 hi lo => exact ⟨_, fun _ => rfl⟩
  case bes16 hi lo => exact ⟨_, fun _ => rfl⟩
  case s12 v => exact ⟨_, fun _ => rfl⟩
  all_goals
    rename_i f p
    cases f
    · exact ⟨_, evalRegistry_eq _ p⟩
    · exact ⟨_, fun _ => rfl⟩

/-- A step that answers a next state evaluated the next input, and drove that input's output. -/
theorem step_next {s s' : State} (h : step s = .next s') :
    ∃ l t i o, s.nextInput = some (l, t) ∧ decode l = .ok i ∧ exec i t = .next s' ∧ s' = t.drive o := by
  unfold step at h
  split at h
  · cases h
  · rename_i l t hin
    split at h
    · cases h
    · rename_i i hd
      obtain ⟨o, ho⟩ := exec_drives i
      exact ⟨l, t, i, o, hin, hd, h, by have := ho t; rw [h] at this; injection this⟩

theorem messageOf_identifier (m : Message) : messageOf m.identifier = some m := by
  cases m <;> rfl

theorem identifier_of_messageOf {id : Id} {m : Message} (h : messageOf id = some m) : m.identifier = id := by
  have := List.find?_some h
  simpa using this

theorem isKnownIdentifier_eq_isSome (id : Id) : isKnownIdentifier id = (messageOf id).isSome := by
  rw [Bool.eq_iff_iff, messageOf, List.find?_isSome]
  simp only [isKnownIdentifier, Message.all, Message.identifier, List.contains_cons, List.contains_nil,
    List.mem_cons, List.not_mem_nil, or_false, exists_eq_or_imp, exists_eq_left, Bool.or_false, Bool.or_eq_true,
    beq_iff_eq, eq_comm (b := id)]

end Sys2Proof.Machine
end

