-- ==== Sys2Proof/Laws/Operands.lean ====
section
/-!
SUPPORT. The small lemmas of the operand forms and of the decoder template.
-/

namespace Sys2Proof.Machine

/-- A slice of a word as a number. -/
theorem extractLsb_toNat {w : Nat} (v : BitVec w) (lo n : Nat) :
    (v.extractLsb' lo n).toNat = v.toNat / 2 ^ lo % 2 ^ n := by
  rw [BitVec.extractLsb'_toNat, Nat.shiftRight_eq_div_pow]

theorem loNibble_toNat (x : Byte) : (loNibble x).toNat = x.toNat % 16 := by
  rw [loNibble, extractLsb_toNat]
  omega

theorem hiNibble_toNat (x : Byte) : (hiNibble x).toNat = x.toNat / 16 := by
  have := x.isLt
  rw [hiNibble, extractLsb_toNat]
  omega

theorem bigEndianU16_toNat (hi lo : Byte) : (bigEndianU16 hi lo).toNat = 256 * hi.toNat + lo.toNat := by
  have h := BitVec.toNat_append hi lo
  rw [← Nat.shiftLeft_add_eq_or_of_lt lo.isLt, Nat.shiftLeft_eq] at h
  exact h.trans (by omega)

/-- The template says "no record" exactly below the minimum length. -/
theorem decoderTemplate_eq_none {α : Type} {m : Message} {body : Lanes → α} {p : Payload} :
    decoderTemplate m body p = none ↔ p.len < m.minLen := by
  unfold decoderTemplate
  split <;> simp_all

theorem decoderTemplate_some {α : Type} {m : Message} {body : Lanes → α} {p : Payload} (h : m.minLen ≤ p.len) :
    decoderTemplate m body p = some (body p.lanes) := by
  unfold decoderTemplate
  rw [if_neg (by omega)]

end Sys2Proof.Machine
end

