-- ==== Sys2Proof/Laws/PerInstr.lean ====
section
/-!
SUPPORT. Family EncodeFits: the line of a well-formed instruction fits the ports of the block it addresses, so its
encoding drops no bit.
-/

namespace Sys2Proof.Laws.EncodeFits

/-- The word of a well-formed instruction's line is narrower than the addressed block's ports. -/
def Statement (i : Instr) : Prop := i.wellFormed = true → (encode i).word.toNat < 2 ^ (encode i).block.width

theorem packPayload_lt (p : Payload) : packPayload p < 2 ^ 68 := by
  have := p.lanes.p0.isLt
  have := p.lanes.p1.isLt
  have := p.lanes.p2.isLt
  have := p.lanes.p3.isLt
  have := p.lanes.p4.isLt
  have := p.lanes.p5.isLt
  have := p.lanes.p6.isLt
  have := p.lanes.p7.isLt
  unfold packPayload
  omega

/-- A number that fits a block's ports is driven as it is. -/
theorem portLine_fits {b : Block} {v : Nat} (h : v < 2 ^ b.width) :
    (portLine b v).word.toNat < 2 ^ (portLine b v).block.width := by
  show (BitVec.ofNat 104 v).toNat < 2 ^ b.width
  rw [BitVec.toNat_ofNat]
  exact Nat.lt_of_le_of_lt (Nat.mod_le _ _) h

theorem registryLine_fits (id : Id) (p : Payload) :
    (registryLine id p).word.toNat < 2 ^ (registryLine id p).block.width :=
  portLine_fits (show 2 ^ 68 * id.toNat + packPayload p < 2 ^ 100 by
    have := packPayload_lt p
    have := id.isLt
    omega)

theorem messageLine_fits (m : Message) (f : Form) (p : Payload) :
    (messageLine m f p).word.toNat < 2 ^ (messageLine m f p).block.width := by
  cases f
  · exact registryLine_fits _ _
  · exact portLine_fits (packPayload_lt p)

theorem engine (f : Form) (p : Payload) : Statement (.engine f p) := fun _ => messageLine_fits .engine f p

theorem gear (f : Form) (p : Payload) : Statement (.gear f p) := fun _ => messageLine_fits .gear f p

theorem throttle (f : Form) (p : Payload) : Statement (.throttle f p) := fun _ => messageLine_fits .throttle f p

theorem wheel (f : Form) (p : Payload) : Statement (.wheel f p) := fun _ => messageLine_fits .wheel f p

theorem brakes (f : Form) (p : Payload) : Statement (.brakes f p) := fun _ => messageLine_fits .brakes f p

theorem traction (f : Form) (p : Payload) : Statement (.traction f p) := fun _ => messageLine_fits .traction f p

theorem sensors (f : Form) (p : Payload) : Statement (.sensors f p) := fun _ => messageLine_fits .sensors f p

theorem killsw (f : Form) (p : Payload) : Statement (.killsw f p) := fun _ => messageLine_fits .killsw f p

theorem fuel (f : Form) (p : Payload) : Statement (.fuel f p) := fun _ => messageLine_fits .fuel f p

theorem lights (f : Form) (p : Payload) : Statement (.lights f p) := fun _ => messageLine_fits .lights f p

theorem unmapped (id : Id) (p : Payload) : Statement (.unmapped id p) := fun _ => registryLine_fits id p

theorem isknown (id : Id) : Statement (.isknown id) := fun _ => portLine_fits id.isLt

theorem nameof (id : Id) : Statement (.nameof id) := fun _ => portLine_fits id.isLt

theorem lonib (x : Byte) : Statement (.lonib x) := fun _ => portLine_fits x.isLt

theorem hinib (x : Byte) : Statement (.hinib x) := fun _ => portLine_fits x.isLt

theorem beu16 (hi lo : Byte) : Statement (.beu16 hi lo) := fun _ =>
  portLine_fits (show 2 ^ 8 * hi.toNat + lo.toNat < 2 ^ 16 by
    have := hi.isLt
    have := lo.isLt
    omega)

theorem bes16 (hi lo : Byte) : Statement (.bes16 hi lo) := fun _ =>
  portLine_fits (show 2 ^ 8 * hi.toNat + lo.toNat < 2 ^ 16 by
    have := hi.isLt
    have := lo.isLt
    omega)

theorem s12 (v : U12) : Statement (.s12 v) := fun _ => portLine_fits v.isLt

end Sys2Proof.Laws.EncodeFits
end

