-- ==== Sys2Proof/Tests/Slice0.lean ====
section
/-!
SUPPORT. Tests: expected results from spec/95_test_vectors.md and the rules; the words are written out from
spec/30_encoding.md R54. The vector's id stands in each docstring. Then the ill-formed terms that WellFormed refuses, and
the witnesses of the statements' hypotheses.
-/

namespace Sys2Proof.Tests

open Sys2Proof.Machine Sys2Proof.Claims

/-- The output of one step from reset on one line. -/
def outputOf (l : Line) : Option Output :=
  match step (State.reset.load [l]) with
  | .next t => t.output
  | .fault _ => none
  | .refused _ => none

/-! ## Well-formedness -/

/-- A 16-byte payload has no port form (R33). -/
theorem test_length_16_has_no_port_form :
    (Instr.engine .standalone ⟨16, ⟨0, 0, 0, 0, 0, 0, 0, 0⟩⟩).wellFormed = false := by decide

/-- UNMAPPED does not stand for a known identifier (R55). -/
theorem test_unmapped_of_known_identifier_is_ill_formed :
    (Instr.unmapped 0x120 ⟨8, ⟨0, 0, 0, 0, 0, 0, 0, 0⟩⟩).wellFormed = false := by decide

theorem test_length_15_is_well_formed :
    (Instr.unmapped 0x121 ⟨15, ⟨0, 0, 0, 0, 0, 0, 0, 0⟩⟩).wellFormed = true := by decide

/-! ## Decoding: words written out from R54, R55 and the opcode table -/

/-- VE6, every payload byte of a frame word in its place. -/
theorem test_decode_engine_word :
    decode ⟨.registry, 0x000001208123456FFFFFFFFFF⟩
      = .ok (.engine .registry ⟨8, ⟨0x12, 0x34, 0x56, 0xFF, 0xFF, 0xFF, 0xFF, 0xFF⟩⟩) := by decide

theorem test_decode_gear_word :
    decode ⟨.registry, 0x0000012980102030405060708⟩ = .ok (.gear .registry ⟨8, ⟨1, 2, 3, 4, 5, 6, 7, 8⟩⟩) := by decide

theorem test_decode_throttle_word :
    decode ⟨.registry, 0x0000012A8001200AB00000000⟩
      = .ok (.throttle .registry ⟨8, ⟨0, 0x12, 0, 0xAB, 0, 0, 0, 0⟩⟩) := by decide

theorem test_decode_wheel_word :
    decode ⟨.registry, 0x0000012B801F401F000F9C064⟩
      = .ok (.wheel .registry ⟨8, ⟨0x01, 0xF4, 0x01, 0xF0, 0x00, 0xF9, 0xC0, 0x64⟩⟩) := by decide

theorem test_decode_brakes_word :
    decode ⟨.registry, 0x0000029088000008012345678⟩
      = .ok (.brakes .registry ⟨8, ⟨0x80, 0, 0, 0x80, 0x12, 0x34, 0x56, 0x78⟩⟩) := by decide

theorem test_decode_traction_word :
    decode ⟨.registry, 0x000004508FFFFFE0000000000⟩
      = .ok (.traction .registry ⟨8, ⟨0xFF, 0xFF, 0xFE, 0, 0, 0, 0, 0⟩⟩) := by decide

theorem test_decode_sensors_word :
    decode ⟨.registry, 0x000005408000BB80280000352⟩
      = .ok (.sensors .registry ⟨8, ⟨0, 0x0B, 0xB8, 0x02, 0x80, 0, 0x03, 0x52⟩⟩) := by decide

theorem test_decode_killsw_word :
    decode ⟨.registry, 0x00000550800101010101010FE⟩
      = .ok (.killsw .registry ⟨8, ⟨0, 0x10, 0x10, 0x10, 0x10, 0x10, 0x10, 0xFE⟩⟩) := by decide

theorem test_decode_fuel_word :
    decode ⟨.registry, 0x00000552F1122334455667788⟩
      = .ok (.fuel .registry ⟨15, ⟨0x11, 0x22, 0x33, 0x44, 0x55, 0x66, 0x77, 0x88⟩⟩) := by decide

theorem test_decode_lights_word :
    decode ⟨.registry, 0x0000065016000000000000000⟩
      = .ok (.lights .registry ⟨1, ⟨0x60, 0, 0, 0, 0, 0, 0, 0⟩⟩) := by decide

/-- VM21, 0x920 is 0x120 + 0x800: all 32 bits are compared. -/
theorem test_decode_unmapped_word :
    decode ⟨.registry, 0x0000092081122334455667788⟩
      = .ok (.unmapped 0x920 ⟨8, ⟨0x11, 0x22, 0x33, 0x44, 0x55, 0x66, 0x77, 0x88⟩⟩) := by decide

theorem test_decode_standalone_word :
    decode ⟨.decoder .sensors, 0x7000BB80280000300⟩
      = .ok (.sensors .standalone ⟨7, ⟨0, 0x0B, 0xB8, 0x02, 0x80, 0, 0x03, 0⟩⟩) := by decide

theorem test_decode_query_words :
    decode ⟨.isKnown, 0xFFFFFFFF⟩ = .ok (.isknown 0xFFFFFFFF) ∧ decode ⟨.nameOf, 0xABC⟩ = .ok (.nameof 0xABC) := by
  decide

theorem test_decode_primitive_words :
    decode ⟨.loNibble, 0xA5⟩ = .ok (.lonib 0xA5) ∧ decode ⟨.hiNibble, 0xA5⟩ = .ok (.hinib 0xA5) ∧
    decode ⟨.bigEndianU16, 0x0BB8⟩ = .ok (.beu16 0x0B 0xB8) ∧
    decode ⟨.bigEndianS16, 0xFFF6⟩ = .ok (.bes16 0xFF 0xF6) ∧ decode ⟨.signed12, 0x801⟩ = .ok (.s12 0x801) := by
  decide

theorem test_word_wider_than_the_ports_is_rejected :
    decode ⟨.signed12, 0x1000⟩ = .error (.strayBits .signed12 12) := by decide

theorem test_table_word_of_unmapped :
    decodeTableWord 104 0x0000000080000000000000000
      = some (.unmapped 0 ⟨8, ⟨0, 0, 0, 0, 0, 0, 0, 0⟩⟩) := by decide

/-- The bare table word of FUEL runs as the first instruction after reset. -/
theorem test_table_word_runs_first :
    (match step (State.reset.withFetchWord 104 0x000005528FF00000000000000) with
      | .next t => t.output
      | .fault _ => none
      | .refused _ => none) = some (.registry (.ok (.fuel ⟨0⟩)) true) := by decide +kernel

/-! ## Results -/

/-- VE3 through the registry, with its ports. -/
theorem test_engine_frame :
    outputOf ⟨.registry, 0x0000012080BB8400001000000⟩
      = some (.registry (.ok (.engine ⟨3000, 64, 1, 1⟩)) true) := by decide

/-- VE1: one byte below the minimum length. -/
theorem test_engine_soft_failure : outputOf ⟨.decoder .engine, 0x40BB8400000000000⟩ = some (.standalone none) := by
  decide

/-- VG5. -/
theorem test_gear_raw_nibble :
    outputOf ⟨.registry, 0x000001298F800000000000000⟩ = some (.registry (.ok (.gear ⟨15, true⟩)) true) := by decide

/-- VT5. -/
theorem test_throttle_fallback :
    outputOf ⟨.registry, 0x0000012A8001200AB00000000⟩
      = some (.registry (.ok (.throttle ⟨true, 0, .rawHex 0x12 0xAB⟩)) true) := by decide

/-- VT3. -/
theorem test_throttle_street :
    outputOf ⟨.registry, 0x0000012A8022D000000000000⟩
      = some (.registry (.ok (.throttle ⟨false, 0, .street⟩)) true) := by decide

/-- VW2. -/
theorem test_wheel_angles :
    outputOf ⟨.registry, 0x0000012B801F401F000F9C064⟩
      = some (.registry (.ok (.wheel ⟨500, 496, -100, 100⟩)) true) := by decide

/-- VW6: the sign of lean is bit 3 of b[6]. -/
theorem test_wheel_lean_sign :
    outputOf ⟨.decoder .wheel, 0x80000000000000800⟩ = some (.standalone (some (.wheel ⟨0, 0, 0, -2048⟩))) := by decide

/-- VB4. -/
theorem test_brakes_unsigned :
    outputOf ⟨.registry, 0x0000029088000008012345678⟩
      = some (.registry (.ok (.brakes ⟨32768, 128⟩)) true) := by decide

/-- VC3. -/
theorem test_traction_bit_0_only :
    outputOf ⟨.registry, 0x000004508FFFFFE0000000000⟩ = some (.registry (.ok (.traction ⟨0⟩)) true) := by decide

/-- VS3: rpm 32768 with the kickstand down. -/
theorem test_sensors_shared_bit :
    outputOf ⟨.registry, 0x000005408008000000000FFF6⟩
      = some (.registry (.ok (.sensors ⟨32768, 0, false, false, -10⟩)) true) := by decide

/-- VK2. -/
theorem test_killsw_running :
    outputOf ⟨.decoder .killsw, 0x11000000000000000⟩ = some (.standalone (some (.killsw ⟨true⟩))) := by decide

/-- VF2. -/
theorem test_fuel_half :
    outputOf ⟨.decoder .fuel, 0x18000000000000000⟩ = some (.standalone (some (.fuel ⟨50⟩))) := by decide +kernel

/-- VF4: the first raw value below 100. -/
theorem test_fuel_99 :
    outputOf ⟨.registry, 0x0000055280300000000000000⟩ = some (.registry (.ok (.fuel ⟨99⟩)) true) := by decide +kernel

/-- VL2. -/
theorem test_lights_bits :
    outputOf ⟨.decoder .lights, 0x42800000C00000000⟩
      = some (.standalone (some (.lights ⟨true, true, false, true, true⟩))) := by decide

/-- VM35: an adjacent identifier takes the fallback. -/
theorem test_unmapped_adjacent :
    outputOf ⟨.registry, 0x0000012181122334455667788⟩
      = some (.registry (.ok (.unmapped ⟨0x11, 0x22, 0x33, 0x44, 0x55, 0x66, 0x77, 0x88⟩)) false) := by decide

/-- S11b: the length is checked before the identifier. -/
theorem test_bad_length_unknown_identifier :
    outputOf ⟨.registry, 0x0000099990102030405060708⟩ = some (.registry (.error ⟨9⟩) false) := by decide

/-- VX1 and its ports. -/
theorem test_bad_length_ports :
    (outputOf ⟨.registry, 0x0000012070BB8400001000000⟩).map (fun o => (o.errPort, o.tagPort, o.knownPort))
      = some (some 1, some 15, some 1) := by decide

/-- VX5: no sticky error. -/
theorem test_error_is_not_sticky :
    (match Sys2Proof.core.run 2 (State.reset.load
        [⟨.registry, 0x0000012070BB8400001000000⟩, ⟨.registry, 0x0000012080BB8400001000000⟩]) with
      | .next t => t.output
      | .fault _ => none
      | .refused _ => none) = some (.registry (.ok (.engine ⟨3000, 64, 1, 1⟩)) true) := by decide

/-- VM6 and VM21. -/
theorem test_isknown :
    outputOf ⟨.isKnown, 0x450⟩ = some (.isKnown true) ∧ outputOf ⟨.isKnown, 0x920⟩ = some (.isKnown false) := by decide

/-- VV18 and VV19. -/
theorem test_nameof_assigned :
    outputOf ⟨.nameOf, 0x12A⟩ = some (.name "Throttle/Mode") ∧ outputOf ⟨.nameOf, 0x290⟩ = some (.name "Brakes") := by
  decide

/-- S13 and VV15. -/
theorem test_nameof_unknown :
    nameOfWith 1 0x999 = "Unknown (0x999)" ∧ nameOfWith 3 0x999 = "Unknown (0x999)" ∧
    nameOfWith 1 0x7 = "Unknown (0x7)" ∧ nameOfWith 3 0x7 = "Unknown (0x007)" := by decide

/-- VP5 and VP6. -/
theorem test_nibbles :
    outputOf ⟨.loNibble, 0xA5⟩ = some (.nibble 5) ∧ outputOf ⟨.hiNibble, 0xA5⟩ = some (.nibble 10) := by decide

/-- VP14 and VP16. -/
theorem test_beu16 :
    outputOf ⟨.bigEndianU16, 0x8000⟩ = some (.unsigned16 32768) ∧
    outputOf ⟨.bigEndianU16, 0x0100⟩ = some (.unsigned16 256) := by decide

/-- VP18 and VP20. -/
theorem test_bes16 :
    outputOf ⟨.bigEndianS16, 0x8000⟩ = some (.signed16 (-32768)) ∧
    outputOf ⟨.bigEndianS16, 0xFFF6⟩ = some (.signed16 (-10)) := by decide

/-- VP26 and VP28. -/
theorem test_s12 :
    outputOf ⟨.signed12, 0x7FF⟩ = some (.signed12 2047) ∧ outputOf ⟨.signed12, 0x801⟩ = some (.signed12 (-2047)) := by
  decide

/-! ## Views -/

/-- VV4 and VV5. -/
theorem test_ride_mode_fallback_text :
    rideModeLabel 1 (.rawHex 0x05 0x00) = "0x5 / 0x0" ∧ rideModeLabel 2 (.rawHex 0x05 0x00) = "0x05 / 0x00" ∧
    rideModeLabel 1 (.rawHex 0xFF 0x0A) = "0xff / 0xa" := by decide

/-- VV12. -/
theorem test_unmapped_text :
    unmappedText ⟨0x0A, 0xFF, 0x7E, 0x80, 0x00, 0xAB, 0xCD, 0xEF⟩ = "0A FF 7E 80 00 AB CD EF" := by decide

/-- VV7, with the binary64 pattern of −1.0. -/
theorem test_view_of_sensors :
    viewWith 1 (.sensors ⟨32768, 0, false, false, -10⟩)
      = [("rpm", .int 32768), ("gear", .int 0), ("kickstandUp", .bool false), ("kickstandError", .bool false),
        ("coolantTempC", .float (-1) 0xBFF0000000000000)] := by decide +kernel

/-- The line of VE1 in the notation of R72. -/
theorem test_source_text :
    sourceText (.message .engine [0x0B, 0xB8, 0x40, 0x00]) = "ENGINE [0B B8 40 00]" ∧
    sourceText (.decode 0x120 []) = "DECODE 0x120, []" := by decide

/-- P3, lines 7 to 12. -/
theorem test_program_p3 :
    programResults [.hinib 0xC0, .s12 0xF9C, .lonib 0xC0, .s12 0x064,
        .message .wheel [0x00, 0x00, 0x00, 0x00, 0x00, 0xF9, 0xC0, 0x64]]
      = [some (.nibble 12), some (.signed12 (-100)), some (.nibble 0), some (.signed12 100),
        some (.standalone (some (.wheel ⟨0, 0, -100, 100⟩)))] := by decide

/-! ## Witnesses: states and operands that meet the hypotheses of the statements -/

/-- A payload of eight bytes and one of seven. -/
def eight : Payload := ⟨8, ⟨0x0B, 0xB8, 0x40, 0x00, 0x01, 0x00, 0x00, 0x00⟩⟩

def seven : Payload := ⟨7, ⟨0x0B, 0xB8, 0x40, 0x00, 0x01, 0x00, 0x00, 0x00⟩⟩

def frameLine : Line := ⟨.registry, 0x0000012080BB8400001000000⟩

def badLine : Line := ⟨.registry, 0x0000012070BB8400001000000⟩

/-- A state with a line to present, and the state after it. -/
def waiting : State := State.reset.load [frameLine]

def settled : State :=
  { pending := [], presented := some frameLine, output := some (.registry (.ok (.engine ⟨3000, 64, 1, 1⟩)) true) }

theorem witness_DecodeOfEncodeIsInstr : (Instr.engine .registry eight).wellFormed = true := by decide

theorem witness_EncodeOfDecodeIsLine : decode frameLine = .ok (.engine .registry eight) := by decide

theorem witness_FrameWordSelectsRowByIdentifier : eight.len < 16 ∧ (0x920 : Id) ∉ tenIdentifiers := by decide

theorem witness_OnlyTooWideWordsAreRefused :
    (State.reset.load [⟨.signed12, 0x1000⟩]).pending = ⟨.signed12, 0x1000⟩ :: [] ∧
    2 ^ (Block.width .signed12) ≤ (0x1000 : PortWord).toNat ∧
    step (State.reset.load [⟨.signed12, 0x1000⟩]) = .refused (.noPortForm (.strayBits .signed12 12)) :=
  ⟨rfl, by decide, rfl⟩

theorem witness_StepRunsTheDecodedInstruction_pending :
    waiting.pending = frameLine :: [] ∧ decode frameLine = .ok (.engine .registry eight) := by decide

theorem witness_StepRunsTheDecodedInstruction_held :
    settled.pending = [] ∧ settled.presented = some frameLine ∧ decode frameLine = .ok (.engine .registry eight) := by
  decide

theorem witness_StepRunsTheDecodedInstruction_no_input :
    State.reset.pending = [] ∧ State.reset.presented = none ∧ step State.reset = .fault .noInputPresented :=
  ⟨rfl, rfl, rfl⟩

theorem witness_Bes16IsBigEndianSigned :
    256 * (0x7F : Byte).toNat + (0xFF : Byte).toNat < 32768 ∧ 32768 ≤ 256 * (0x80 : Byte).toNat + (0x00 : Byte).toNat := by
  decide

theorem witness_S12IsTwosComplement :
    (0x800 : U12).getLsbD 11 = true ∧ (0x7FF : U12).getLsbD 11 = false := by decide

theorem witness_LightsWordIsLittleEndian : (3 : Nat) < 4 ∧ (7 : Nat) < 8 := by decide

/-- For the ten decoder statements: payloads at and below each minimum length, and the registry's eight bytes. -/
theorem witness_DecoderRow :
    (∀ m ∈ Message.all, m.minLen ≤ eight.len ∧ ∃ p : Payload, p.len + 1 = m.minLen) ∧ eight.len = 8 :=
  ⟨fun m _ => ⟨by cases m <;> decide, by cases m <;> exact ⟨⟨_, eight.lanes⟩, rfl⟩⟩, rfl⟩

theorem witness_ThrottleRecord : (0xAC : Byte) ∉ ([0xAD, 0x2D, 0x6D, 0xED, 0x89, 0xC9] : List Byte) := by decide

/-- Two payloads that differ in unused bits only (VG7). -/
theorem witness_UnusedBitsHaveNoEffect :
    usedBits .gear ⟨0x17, 0xFF, 0xFF, 0, 0, 0, 0, 0⟩ = usedBits .gear ⟨0x10, 0, 0, 0, 0, 0, 0, 0x60⟩ ∧
    (0x999 : Id) ∉ tenIdentifiers := by decide

/-- Two payloads of length 7 that differ in lane 7. -/
theorem witness_LanesAboveLengthAreNotRead :
    seven ≠ ⟨7, ⟨0x0B, 0xB8, 0x40, 0x00, 0x01, 0x00, 0x00, 0xFF⟩⟩ ∧
    AgreeBelowLength seven ⟨7, ⟨0x0B, 0xB8, 0x40, 0x00, 0x01, 0x00, 0x00, 0xFF⟩⟩ := by
  refine ⟨by decide, rfl, fun i hi => ?_⟩
  have h : i < 7 := hi
  interval_cases i <;> decide

theorem witness_BadLengthRaisesInvalidArgument : seven.len ≠ 8 ∧ (Payload.len ⟨9, eight.lanes⟩) ≠ 8 := by decide

theorem witness_NoRecordExactlyBelowMinimumLength :
    (Message.wheel, 8) ∈ minLengths ∧ seven.len < 8 ∧ ¬ eight.len < 8 := by decide

theorem witness_UnknownIdentifierIsUnmapped : (0x121 : Id) ∉ tenIdentifiers ∧ eight.len = 8 := by decide

theorem witness_RegistryIsTotalAndNeverEmpty : eight.len = 8 := rfl

theorem witness_NameofGivesTheLabel :
    (0x120 : Id) ∈ tenIdentifiers ∧ (0x120 : Id) ≠ 0x12A ∧ (0x120 : Id) ≠ 0x290 ∧ (0x12A : Id) ∈ tenIdentifiers ∧
    (0x290 : Id) ∈ tenIdentifiers ∧ (0xABC : Id) ∉ tenIdentifiers := by decide

/-- At both ends: padding (`0x7` with three digits) and none (eight digits). -/
theorem witness_HexDigitsAreTheValue :
    (0xFFFFFFFF : Nat) < 2 ^ 32 ∧ 3 < (hexDigits 0xFFFFFFFF 3).length ∧ (hexDigits 7 3).length = 3 := by decide

theorem witness_RideModeLabelText : (1 = 1 ∨ 1 = 2) ∧ ((2 : Nat) = 1 ∨ 2 = 2) := by decide

theorem witness_UnmappedTextIsInjective :
    unmappedText eight.lanes = "0B B8 40 00 01 00 00 00" ∧
    unmappedText eight.lanes = unmappedText ⟨0x0B, 0xB8, 0x40, 0x00, 0x01, 0x00, 0x00, 0x00⟩ := by decide

/-- The pattern of 85.0 (VV6), and the extremes of the coolant range. -/
theorem test_binary64_of_85 :
    binary64Bits (850 / 10) = 0x4055400000000000 ∧ binary64Value 0x4055400000000000 = 85 := by decide +kernel

theorem witness_Binary64RoundsToNearest :
    (0 : Rat) < 850 / 10 ∧ -1022 ≤ binaryExponent (850 / 10) ∧ binaryExponent (850 / 10) ≤ 1022 ∧
    binarySignificand (850 / 10) < 2 ^ 53 := by decide +kernel

/-- A rational just below 1 whose significand rounds up to 2^53, and one with the largest exponent. -/
theorem witness_Binary64RoundsToNearest_edges :
    (0 : Rat) < 1 - 1 / 2 ^ 60 ∧ binarySignificand (1 - 1 / 2 ^ 60) = 2 ^ 53 ∧
    binaryExponent (1 - 1 / 2 ^ 60) = -1 ∧
    binaryExponent (powTwo 1023) = 1023 ∧ binarySignificand (powTwo 1023) < 2 ^ 53 ∧
    binaryExponent (powTwo (-1022)) = -1022 := by decide +kernel

theorem witness_Binary64RoundsToNearest_coolant : -32768 ≤ (-32768 : Int) ∧ (-32768 : Int) ≤ 32767 := by decide

theorem witness_CoolantIsTenthsOfADegree : 8 ≤ eight.len := by decide

/-- A legal record and buses that carry it, all other buses at 0. -/
theorem witness_PortsCarryTheRecord :
    (Record.fuel ⟨50⟩).Legal ∧
    ∃ bus : (b : Bus) → BitVec b.width, ∀ b v, (Record.fuel ⟨50⟩).bus b = some v → bus b = v :=
  ⟨by show (50 : Nat) ≤ 100; decide, fun b => ((Record.fuel ⟨50⟩).bus b).getD 0, fun b v h => by simp [h]⟩

theorem witness_PortCodesWithoutRecordAreRefused : 12 ≤ (12 : BitVec 4).toNat ∧ 12 ≤ (15 : BitVec 4).toNat := by decide

theorem witness_FunctionalViewReadsTheList :
    ([1, 2, 3, 4, 5, 6, 7, 8] : List Byte).length = 8 ∧ ([] : List Byte).length ≠ 8 ∧
    (List.replicate 20 (0 : Byte)).length ≠ 8 ∧ messageOf 0x129 = some .gear := by decide

/-- At, below and above the minimum length of TRACTION (VC1, VC2). -/
theorem witness_FunctionalViewReadsTheList_decoder :
    (Message.traction, 3) ∈ minLengths ∧ messageBytes .traction [0x00, 0x00] = none ∧
    messageBytes .traction [0x00, 0x00, 0x01] = some (.traction ⟨1⟩) ∧
    messageBytes .traction ([0x00, 0x00, 0x01] ++ List.replicate 20 0xFF) = some (.traction ⟨1⟩) := by decide

theorem witness_SourceLineHasPortForm :
    lineOfSource (.decode 0x129 [0x38]) = some ⟨.registry, 0x0000012913800000000000000⟩ ∧
    lineOfSource (.decode 0x129 (List.replicate 16 0)) = none := by decide

theorem witness_InstructionsChangeOnlyTheOutput :
    exec (.engine .registry eight) settled = .next settled := rfl

theorem witness_FirstEvaluationIsLikeAnyOther : [frameLine] ≠ [] := by decide

theorem witness_StepKeepsInv : State.Inv settled ∧ step settled = .next settled := by
  refine ⟨?_, rfl⟩
  unfold State.Inv
  refine ⟨(fun h => nomatch h), fun l h => ?_, fun o h => ?_⟩
  · cases h
    exact ⟨.engine .registry eight, by decide, rfl⟩
  · cases h
    exact ⟨trivial, by decide, by simp⟩

theorem witness_EvaluationIsIdempotent : step waiting = .next settled ∧ settled.pending = [] := ⟨rfl, rfl⟩

theorem witness_OutputDependsOnItsInputsOnly :
    waiting.pending = frameLine :: [] ∧ (settled.load [frameLine, badLine]).pending = frameLine :: [badLine] ∧
    step waiting = .next settled := ⟨rfl, rfl, rfl⟩

theorem witness_ProgramEndsWithTheLastLinesResult :
    (∀ x ∈ [badLine], ∃ j, decode x = .ok j) ∧ decode frameLine = .ok (.engine .registry eight) :=
  ⟨fun x h => by
    rw [List.mem_singleton] at h
    subst h
    exact ⟨.engine .registry seven, by decide⟩, by decide⟩

theorem witness_FailureIsNotSticky :
    (State.reset.load [badLine, frameLine]).pending = badLine :: frameLine :: [] ∧
    ∃ t, step (State.reset.load [badLine, frameLine]) = .next t ∧ t.output = some (.registry (.error ⟨7⟩) true) :=
  ⟨rfl, _, rfl, rfl⟩

end Sys2Proof.Tests
end

section
/-!
PROOFS. R67 (spec/30_encoding.md): the bits the layout tables R57 to R66 mark unused reach no output. Each decoder's
body gives the same record on a payload and on that payload with the unused bits set to 0; the UNMAPPED record keeps
all eight bytes.
-/

namespace Sys2Proof.Machine

open Sys2Proof.Claims

/-! ### Fields of a masked byte -/

/-- A field that lies under the ones of a mask is read the same through the mask. -/
theorem extractLsb_and_mask {w lo n : Nat} (x : BitVec w) {mask : BitVec w}
    (h : mask.extractLsb' lo n = BitVec.allOnes n) : (x &&& mask).extractLsb' lo n = x.extractLsb' lo n := by
  rw [BitVec.extractLsb'_and, h, BitVec.and_allOnes]

theorem bitField_and_mask (x : Byte) {mask : Byte} {k : Nat} (h : mask.extractLsb' k 1 = BitVec.allOnes 1) :
    bitField (x &&& mask) k = bitField x k :=
  extractLsb_and_mask x h

theorem bitSet_and_mask (x : Byte) {mask : Byte} {k : Nat} (h : mask.extractLsb' k 1 = BitVec.allOnes 1) :
    bitSet (x &&& mask) k = bitSet x k :=
  congrArg (· == 1) (extractLsb_and_mask x h)

theorem bitClear_and_mask (x : Byte) {mask : Byte} {k : Nat} (h : mask.extractLsb' k 1 = BitVec.allOnes 1) :
    bitClear (x &&& mask) k = bitClear x k :=
  congrArg (· == 0) (extractLsb_and_mask x h)

theorem loNibble_and_mask (x : Byte) {mask : Byte} (h : mask.extractLsb' 0 4 = BitVec.allOnes 4) :
    loNibble (x &&& mask) = loNibble x :=
  extractLsb_and_mask x h

theorem hiNibble_and_mask (x : Byte) {mask : Byte} (h : mask.extractLsb' 4 4 = BitVec.allOnes 4) :
    hiNibble (x &&& mask) = hiNibble x :=
  extractLsb_and_mask x h

/-- A bit as a one-bit word is determined by its truth value. -/
theorem bitOf_congr {v w : Nat} {x : BitVec v} {y : BitVec w} {j k : Nat} (h : x.getLsbD j = y.getLsbD k) :
    bitOf x j = bitOf y k := by
  refine BitVec.eq_of_getLsbD_eq fun i hi => ?_
  obtain rfl : i = 0 := by omega
  simpa only [bitOf, BitVec.getLsbD_extractLsb', Nat.add_zero] using congrArg (decide (0 < 1) && ·) h

/-- The bytes of the Lights word, lowest first (R42). -/
theorem littleEndianU32_getLsbD (b0 b1 b2 b3 : Byte) (k : Nat) :
    (littleEndianU32 b0 b1 b2 b3).getLsbD k =
      if k < 8 then b0.getLsbD k else (b3 ++ b2 ++ b1).getLsbD (k - 8) :=
  BitVec.getLsbD_append ..

/-- Bits 0 to 7 of the Lights word are `b[0]` (R42). -/
theorem wordBitSet_littleEndian_byte0 (b0 b1 b2 b3 : Byte) {k : Nat} (h : k < 8) :
    wordBitSet (littleEndianU32 b0 b1 b2 b3) k = bitSet b0 k :=
  congrArg (· == 1) (bitOf_congr (by rw [littleEndianU32_getLsbD, if_pos h]))

/-- Bits 24 to 31 of the Lights word are `b[3]` (R42). -/
theorem wordBitSet_littleEndian_byte3 (b0 b1 b2 b3 : Byte) (k : Nat) :
    wordBitSet (littleEndianU32 b0 b1 b2 b3) (24 + k) = bitSet b3 k := by
  have hk : 24 + k - 8 - 8 - 8 = k := by omega
  refine congrArg (· == 1) (bitOf_congr ?_)
  rw [littleEndianU32_getLsbD, if_neg (by omega), BitVec.getLsbD_append, if_neg (by omega), BitVec.getLsbD_append,
    if_neg (by omega), hk]

/-! ### Each decoder's body reads the used bits only -/

theorem engineBody_usedBits (b : Lanes) : engineBody (usedBits .engine b) = engineBody b := by
  simp (disch := decide) only [engineBody, usedBits, bitField_and_mask]

theorem gearBody_usedBits (b : Lanes) : gearBody (usedBits .gear b) = gearBody b := by
  simp (disch := decide) only [gearBody, usedBits, hiNibble_and_mask, bitSet_and_mask]

theorem throttleBody_usedBits (b : Lanes) : throttleBody (usedBits .throttle b) = throttleBody b := by
  simp (disch := decide) only [throttleBody, usedBits, bitClear_and_mask]

theorem tractionBody_usedBits (b : Lanes) : tractionBody (usedBits .traction b) = tractionBody b := by
  simp (disch := decide) only [tractionBody, usedBits, bitField_and_mask]

theorem sensorsBody_usedBits (b : Lanes) : sensorsBody (usedBits .sensors b) = sensorsBody b := by
  simp (disch := decide) only [sensorsBody, usedBits, loNibble_and_mask, bitSet_and_mask]

theorem killswBody_usedBits (b : Lanes) : killswBody (usedBits .killsw b) = killswBody b := by
  simp (disch := decide) only [killswBody, usedBits, bitSet_and_mask]

/-- The five flags of R94 as bits of the payload bytes they stand in. -/
theorem lightsBody_eq (b : Lanes) :
    lightsBody b = ⟨bitSet b.p0 3, bitSet b.p0 5, bitSet b.p0 6, bitSet b.p3 2, bitSet b.p3 3⟩ := by
  simp only [lightsBody, LightsFrame.mk.injEq]
  exact ⟨wordBitSet_littleEndian_byte0 _ _ _ _ (by decide), wordBitSet_littleEndian_byte0 _ _ _ _ (by decide),
    wordBitSet_littleEndian_byte0 _ _ _ _ (by decide), wordBitSet_littleEndian_byte3 _ _ _ _ 2,
    wordBitSet_littleEndian_byte3 _ _ _ _ 3⟩

theorem lightsBody_usedBits (b : Lanes) : lightsBody (usedBits .lights b) = lightsBody b := by
  simp (disch := decide) only [lightsBody_eq, usedBits, bitSet_and_mask]

/-! ### From the bodies to the outputs -/

/-- A decoder's result depends on the lanes only through what its body makes of them. -/
theorem decoderTemplate_congr {α : Type} {m : Message} {body : Lanes → α} {n : Nat} {b c : Lanes}
    (h : body b = body c) : decoderTemplate m body ⟨n, b⟩ = decoderTemplate m body ⟨n, c⟩ := by
  simp only [decoderTemplate, h]

theorem runDecoder_usedBits (m : Message) (n : Nat) (b : Lanes) :
    runDecoder m ⟨n, usedBits m b⟩ = runDecoder m ⟨n, b⟩ := by
  cases m with
  | engine => exact congrArg (Option.map _) (decoderTemplate_congr (engineBody_usedBits b))
  | gear => exact congrArg (Option.map _) (decoderTemplate_congr (gearBody_usedBits b))
  | throttle => exact congrArg (Option.map _) (decoderTemplate_congr (throttleBody_usedBits b))
  | wheel => rfl
  | brakes => rfl
  | traction => exact congrArg (Option.map _) (decoderTemplate_congr (tractionBody_usedBits b))
  | sensors => exact congrArg (Option.map _) (decoderTemplate_congr (sensorsBody_usedBits b))
  | killsw => exact congrArg (Option.map _) (decoderTemplate_congr (killswBody_usedBits b))
  | fuel => rfl
  | lights => exact congrArg (Option.map _) (decoderTemplate_congr (lightsBody_usedBits b))

/-- The registry reads a message's payload only through its length and the message's decoder. -/
theorem registryDecode_congr {m : Message} {p q : Payload} (h : runDecoder m p = runDecoder m q)
    (hlen : p.len = q.len) : registryDecode m.identifier p = registryDecode m.identifier q := by
  simp only [registryDecode, selectRecord, messageOf_identifier, hlen, h]

/-- A message row, in either form, depends on the payload only through its length and the message's decoder. -/
theorem exec_ofMessage_congr {m : Message} {p q : Payload} (h : runDecoder m p = runDecoder m q)
    (hlen : p.len = q.len) (f : Form) (s : State) :
    exec (.ofMessage m f p) s = exec (.ofMessage m f q) s := by
  rw [exec_ofMessage, exec_ofMessage]
  cases f with
  | registry => rw [evalMessage_registry, evalMessage_registry, registryDecode_congr h hlen]
  | standalone => rw [evalMessage_standalone, evalMessage_standalone, h]

/-! ### The fallback record -/

theorem messageOf_eq_none {id : Id} (h : id ∉ tenIdentifiers) : messageOf id = none := by
  have hknown : isKnownIdentifier id = false := by simpa [isKnownIdentifier, tenIdentifiers] using h
  rwa [isKnownIdentifier_eq_isSome, Option.isSome_eq_false_iff, Option.isNone_iff_eq_none] at hknown

theorem State.drive_injective (s : State) : Function.Injective s.drive := fun _ _ h =>
  Option.some.inj (congrArg State.output h)

/-- UNMAPPED on eight bytes: the record with the raw bytes, and `KNOWN` clear (R99). -/
theorem exec_unmapped_eight {id : Id} (h : id ∉ tenIdentifiers) (b : Lanes) (s : State) :
    exec (.unmapped id ⟨8, b⟩) s = .next (s.drive (.registry (.ok (.unmapped b)) false)) := by
  have hm := messageOf_eq_none h
  calc exec (.unmapped id ⟨8, b⟩) s
      = .next (s.drive (.registry (registryDecode id ⟨8, b⟩) (isKnownIdentifier id))) := evalRegistry_eq id ⟨8, b⟩ s
    _ = .next (s.drive (.registry (.ok (.unmapped b)) false)) := by
      rw [registryDecode_length_eight rfl, selectRecord, isKnownIdentifier_eq_isSome, hm, Option.isSome_none]

/-- Settles O24: setting the unused bits to 0 changes no decoder's result, so payloads that agree on the used bits give
one next state; the UNMAPPED record holds the eight bytes themselves. -/
theorem unusedBitsHaveNoEffect : Obligations.UnusedBitsHaveNoEffect := by
  refine ⟨fun m f n b c s hused => ?_, fun id b c s hid hexec => ?_⟩
  · have hdec : runDecoder m ⟨n, b⟩ = runDecoder m ⟨n, c⟩ := by
      rw [← runDecoder_usedBits m n b, hused, runDecoder_usedBits]
    exact exec_ofMessage_congr hdec rfl f s
  · rw [exec_unmapped_eight hid, exec_unmapped_eight hid] at hexec
    injection hexec with hstate
    have hout := State.drive_injective s hstate
    injection hout with hresult
    injection hresult with hrecord
    injection hrecord

end Sys2Proof.Machine
end

section
/-!
PROOFS. R74 to R78 (spec/40_primitives.md): the five bit primitives. Each rule's other forms (the mask, the shift, the
two's-complement reading of the same bits) are shown equal to the operand form the meaning drives.
-/

namespace Sys2Proof.Machine

open Sys2Proof.Claims

/-! ### What each primitive drives -/

theorem drives_lonib (x : Byte) (s : State) : Drives (.lonib x) s (.nibble (loNibble x)) := rfl

theorem drives_hinib (x : Byte) (s : State) : Drives (.hinib x) s (.nibble (hiNibble x)) := rfl

theorem drives_beu16 (hi lo : Byte) (s : State) : Drives (.beu16 hi lo) s (.unsigned16 (bigEndianU16 hi lo)) := rfl

theorem drives_bes16 (hi lo : Byte) (s : State) : Drives (.bes16 hi lo) s (.signed16 (bigEndianS16 hi lo)) := rfl

theorem drives_s12 (v : U12) (s : State) : Drives (.s12 v) s (.signed12 (signed12 v)) := rfl

/-! ### The nibbles -/

theorem loNibble_eq_ofNat (x : Byte) : loNibble x = BitVec.ofNat 4 (x.toNat % 16) := by
  rw [← loNibble_toNat, BitVec.ofNat_toNat, BitVec.setWidth_eq]

theorem hiNibble_eq_ofNat (x : Byte) : hiNibble x = BitVec.ofNat 4 (x.toNat / 16) := by
  rw [← hiNibble_toNat, BitVec.ofNat_toNat, BitVec.setWidth_eq]

/-- A nibble widened to a byte keeps its value. -/
theorem nibble_setWidth_toNat (n : Nibble) : (n.setWidth 8).toNat = n.toNat :=
  BitVec.toNat_setWidth_of_le (by decide)

theorem loNibble_setWidth (x : Byte) : (loNibble x).setWidth 8 = x &&& 0x0F := by
  apply BitVec.eq_of_toNat_eq
  rw [nibble_setWidth_toNat, loNibble_toNat, BitVec.toNat_and]
  exact (Nat.and_two_pow_sub_one_eq_mod x.toNat 4).symm

theorem hiNibble_setWidth (x : Byte) : (hiNibble x).setWidth 8 = x >>> 4 := by
  apply BitVec.eq_of_toNat_eq
  rw [nibble_setWidth_toNat, hiNibble_toNat, BitVec.toNat_ushiftRight, Nat.shiftRight_eq_div_pow]

/-- Settles O7: the driven nibble has the value `x mod 16`, which is the byte masked to its low four bits. -/
theorem lonibIsLowNibble : Obligations.LonibIsLowNibble := fun x s => by
  rw [← loNibble_eq_ofNat]
  exact ⟨drives_lonib x s, loNibble_setWidth x⟩

/-- Settles O8: the driven nibble has the value `x / 16`, which is the byte shifted right by four. -/
theorem hinibIsHighNibble : Obligations.HinibIsHighNibble := fun x s => by
  rw [← hiNibble_eq_ofNat]
  exact ⟨drives_hinib x s, hiNibble_setWidth x⟩

/-! ### The big-endian assemblies -/

theorem bigEndianU16_eq_shift_or (hi lo : Byte) :
    bigEndianU16 hi lo = (hi.setWidth 16 <<< 8) ||| lo.setWidth 16 := by
  rw [← BitVec.setWidth_append_eq_shiftLeft_setWidth_or, BitVec.setWidth_eq, bigEndianU16]

/-- Settles O9: appending the bytes is the shift-or form, and its value is the weighted sum. -/
theorem beu16IsBigEndianUnsigned : Obligations.Beu16IsBigEndianUnsigned := fun hi lo s => by
  rw [← bigEndianU16_eq_shift_or]
  exact ⟨drives_beu16 hi lo s, bigEndianU16_toNat hi lo⟩

theorem bigEndianS16_of_lt {hi lo : Byte} (h : 256 * hi.toNat + lo.toNat < 32768) :
    bigEndianS16 hi lo = 256 * hi.toNat + lo.toNat := by
  rw [← bigEndianU16_toNat] at h
  rw [bigEndianS16, if_neg (by omega), bigEndianU16_toNat]
  push_cast
  rfl

theorem bigEndianS16_of_ge {hi lo : Byte} (h : 32768 ≤ 256 * hi.toNat + lo.toNat) :
    bigEndianS16 hi lo = 256 * (hi.toNat : Int) + lo.toNat - 65536 := by
  rw [← bigEndianU16_toNat] at h
  rw [bigEndianS16, if_pos h, bigEndianU16_toNat]
  push_cast
  rfl

/-- R77's reinterpretation is the two's-complement value of the sixteen bits. -/
theorem bigEndianS16_eq_toInt (hi lo : Byte) : bigEndianS16 hi lo = (bigEndianU16 hi lo).toInt := by
  rw [BitVec.toInt_eq_toNat_cond]
  by_cases h : (bigEndianU16 hi lo).toNat ≥ 32768
  · rw [bigEndianS16, if_pos h, if_neg (by omega)]
    rfl
  · rw [bigEndianS16, if_neg h, if_pos (by omega)]

/-- Settles O10: the two clauses of R77 are the two cases of the sign; the range is that of a 16-bit signed word. -/
theorem bes16IsBigEndianSigned : Obligations.Bes16IsBigEndianSigned := fun hi lo s => by
  have hvalue := bigEndianS16_eq_toInt hi lo
  have hlow := (bigEndianU16 hi lo).le_toInt
  have hhigh := (bigEndianU16 hi lo).toInt_lt
  exact ⟨bigEndianS16 hi lo, drives_bes16 hi lo s, bigEndianS16_of_lt, bigEndianS16_of_ge, hvalue,
    by omega, by omega⟩

/-! ### The 12-bit sign extension -/

theorem bitOf_eq_one_iff {w : Nat} (v : BitVec w) (k : Nat) : bitOf v k = 1 ↔ v.getLsbD k = true := by
  have hword : ∀ b : U1, b = 1 ↔ b.getLsbD 0 = true := by decide
  rw [hword, bitOf, BitVec.getLsbD_extractLsb', Nat.add_zero, decide_eq_true Nat.zero_lt_one, Bool.true_and]

theorem signed12_of_bit11 {v : U12} (h : v.getLsbD 11 = true) : signed12 v = (v.toNat : Int) - 4096 :=
  if_pos ((bitOf_eq_one_iff v 11).mpr h)

theorem signed12_of_not_bit11 {v : U12} (h : v.getLsbD 11 = false) : signed12 v = v.toNat :=
  if_neg (mt (bitOf_eq_one_iff v 11).mp (ne_true_of_eq_false h))

/-- `sext_12`: bit 11 is the sign bit of a 12-bit word. -/
theorem signed12_eq_toInt (v : U12) : signed12 v = v.toInt := by
  rw [BitVec.toInt_eq_msb_cond, BitVec.msb_eq_getLsbD_last]
  cases h : v.getLsbD 11 with
  | true => exact signed12_of_bit11 h
  | false => exact signed12_of_not_bit11 h

/-- Bit 11 counts negatively and the eleven bits below it as they stand. -/
theorem signed12_eq_masks (v : U12) : signed12 v = -((v &&& 0x800).toNat : Int) + (v &&& 0x7FF).toNat := by
  have hsign : (v &&& 0x800).toNat = v.toNat / 2 ^ 11 % 2 * 2 ^ 11 :=
    (Nat.and_two_pow v.toNat 11).trans (by rw [Nat.toNat_testBit])
  have hrest : (v &&& 0x7FF).toNat = v.toNat % 2 ^ 11 := Nat.and_two_pow_sub_one_eq_mod v.toNat 11
  rw [signed12_eq_toInt, BitVec.toInt_eq_toNat_cond, hsign, hrest]
  split <;> omega

/-- Masking the result back to 12 bits gives the operand. -/
theorem signed12_roundTrip (v : U12) : (signed12 v + 4096) % 4096 = v.toNat := by
  rw [signed12_eq_toInt, BitVec.toInt_eq_toNat_cond]
  split <;> omega

/-- With the sign bit set, filling the twenty bits above a 12-bit word with ones is its sign extension to 32 bits. -/
theorem or_high_ones_eq_signExtend {v : U12} (h : v.msb = true) :
    v.setWidth 32 ||| 0xFFFFF000#32 = v.signExtend 32 := by
  calc v.setWidth 32 ||| 0xFFFFF000#32
      = (0#20 ++ v) ||| (BitVec.allOnes 20 ++ 0#12) := by
        rw [BitVec.setWidth_eq_append (by decide)]
        rfl
    _ = BitVec.allOnes 20 ++ v := by rw [BitVec.or_append, BitVec.zero_or, BitVec.or_zero]
    _ = v.signExtend 32 := by
        rw [BitVec.signExtend_eq_append_of_le (by decide), if_pos h]
        rfl

/-- Settles O11: every form of R78 is the two's-complement value of the twelve bits, whose range and sign extension the
library gives. -/
theorem s12IsTwosComplement : Obligations.S12IsTwosComplement := fun v s => by
  have hvalue := signed12_eq_toInt v
  have hlow := v.le_toInt
  have hhigh := v.toInt_lt
  refine ⟨signed12 v, drives_s12 v s, signed12_of_bit11, signed12_of_not_bit11, hvalue, signed12_eq_masks v,
    fun h => ?_, by omega, by omega, signed12_roundTrip v⟩
  rw [or_high_ones_eq_signExtend (v.msb_eq_getLsbD_last.trans h), BitVec.toInt_signExtend_of_le (by decide), hvalue]

end Sys2Proof.Machine
end

section
/-!
PROOFS. R82 to R94 (spec/41_decoders.md): the ten message rows. One lemma takes any row to its decoder's body; then each
body's record is shown to be the one its rule writes out.
-/

namespace Sys2Proof.Machine

open Sys2Proof.Claims

/-! ### A message row drives its decoder's result -/

theorem drives_standalone (m : Message) (p : Payload) (s : State) :
    Drives (.ofMessage m .standalone p) s (.standalone (runDecoder m p)) :=
  exec_ofMessage m .standalone p s

/-- On eight bytes the registry drives the record the message's decoder gives, with `KNOWN` set (R98, R34). -/
theorem drives_registry_eight {m : Message} {p : Payload} {r : Record} (hlen : p.len = 8)
    (hrun : runDecoder m p = some r) (s : State) :
    Drives (.ofMessage m .registry p) s (.registry (.ok r) true) := by
  rw [Drives, exec_ofMessage, evalMessage_registry, registryDecode_length_eight hlen, isKnownIdentifier_eq_isSome,
    selectRecord, messageOf_identifier]
  simp only [hrun]
  rfl

/-- No decoder needs more than the eight bytes of the registry (R56, R101). -/
theorem minLen_le_eight (m : Message) : m.minLen ≤ 8 := by
  cases m <;> decide

/-- A row whose decoder is the template around `body` answers the record of that body (R81). -/
theorem decoderRow_of_body {α : Type} {m : Message} {body : Lanes → α} {wrap : α → Record} {record : Lanes → Record}
    (hrun : ∀ p, runDecoder m p = (decoderTemplate m body p).map wrap) (hrecord : ∀ b, wrap (body b) = record b) :
    DecoderRow (Instr.ofMessage m) m.minLen record := by
  have hsome : ∀ p : Payload, m.minLen ≤ p.len → runDecoder m p = some (record p.lanes) := fun p h => by
    rw [hrun, decoderTemplate_some h, Option.map_some, hrecord]
  refine ⟨fun s p h => ?_, fun s p h => ?_, fun s p h => ?_⟩
  · rw [← hsome p h]
    exact drives_standalone m p s
  · have hnone : runDecoder m p = none := by rw [hrun, decoderTemplate_eq_none.mpr h, Option.map_none]
    rw [← hnone]
    exact drives_standalone m p s
  · exact drives_registry_eight h (hsome p (h ▸ minLen_le_eight m)) s

/-! ### The bit tests as bits of the byte -/

theorem bitField_eq_ofBool (x : Byte) (k : Nat) : bitField x k = BitVec.ofBool (x.getLsbD k) := by
  have hbit : ∀ b : U1, b = BitVec.ofBool (b.getLsbD 0) := by decide
  rw [hbit (bitField x k), bitField, bitOf, BitVec.getLsbD_extractLsb', Nat.add_zero, decide_eq_true Nat.zero_lt_one,
    Bool.true_and]

theorem bitSet_eq_getLsbD (x : Byte) (k : Nat) : bitSet x k = x.getLsbD k := by
  rw [Bool.eq_iff_iff, bitSet, beq_iff_eq, bitOf_eq_one_iff]

theorem bitClear_eq_not_getLsbD (x : Byte) (k : Nat) : bitClear x k = !x.getLsbD k := by
  have hbit : ∀ b : U1, (b == 0) = !(b == 1) := by decide
  rw [← bitSet_eq_getLsbD]
  exact hbit (bitOf x k)

/-- Bit 4 of a byte is the mask `x & 0x10` of R91. -/
theorem bitSet_four_eq_mask (x : Byte) : bitSet x 4 = decide (x &&& 0x10 ≠ 0) := by
  have hmask : x &&& 0x10 = if x.getLsbD 4 then 0x10 else 0 := BitVec.and_twoPow x 4
  rw [bitSet_eq_getLsbD, hmask]
  cases x.getLsbD 4 <;> rfl

/-! ### The 12-bit patterns in their shift-or form (R43, R86) -/

theorem hiNibble_setWidth_twelve (x : Byte) : (hiNibble x).setWidth 12 = x.setWidth 12 >>> 4 := by
  apply BitVec.eq_of_toNat_eq
  rw [BitVec.toNat_ushiftRight, BitVec.toNat_setWidth_of_le (by decide), BitVec.toNat_setWidth_of_le (by decide),
    hiNibble_toNat, Nat.shiftRight_eq_div_pow]

/-- The high nibble of the byte is shifted out of the twelve bits. -/
theorem loNibble_setWidth_shiftLeft (x : Byte) : (loNibble x).setWidth 12 <<< 8 = x.setWidth 12 <<< 8 := by
  apply BitVec.eq_of_toNat_eq
  simp only [BitVec.toNat_shiftLeft, BitVec.toNat_setWidth, loNibble_toNat, Nat.shiftLeft_eq]
  omega

theorem patternByteHiNibble_eq_shift_or (byte nibbles : Byte) :
    patternByteHiNibble byte nibbles = (byte.setWidth 12 <<< 4) ||| (nibbles.setWidth 12 >>> 4) := by
  rw [← hiNibble_setWidth_twelve, ← BitVec.setWidth_append_eq_shiftLeft_setWidth_or, BitVec.setWidth_eq,
    patternByteHiNibble]

theorem patternLoNibbleByte_eq_shift_or (nibbles byte : Byte) :
    patternLoNibbleByte nibbles byte = (nibbles.setWidth 12 <<< 8) ||| byte.setWidth 12 := by
  rw [← loNibble_setWidth_shiftLeft, ← BitVec.setWidth_append_eq_shiftLeft_setWidth_or, BitVec.setWidth_eq,
    patternLoNibbleByte]

/-! ### The fuel percentage (R92) -/

/-- The rounded quantity `x + 1/2` as one fraction of integers. -/
theorem fuelRatio_add_half (raw : Byte) :
    fuelRatio raw + 1 / 2 = ((200 * (256 - raw.toNat) + 255 : Nat) : Rat) / (510 : Nat) := by
  have hle : raw.toNat ≤ 256 := Nat.le_of_lt raw.isLt
  rw [fuelRatio]
  push_cast [Nat.cast_sub hle]
  ring

theorem fuelQuotient_le (raw : Byte) : (200 * (256 - raw.toNat) + 255) / 510 ≤ 100 := by
  omega

theorem fuelPercent_eq (raw : Byte) : fuelPercent raw = (200 * (256 - raw.toNat) + 255) / 510 := by
  have hround : roundNearest (fuelRatio raw) = ((200 * (256 - raw.toNat) + 255) / 510 : Nat) := by
    rw [roundNearest, fuelRatio_add_half]
    exact Rat.floor_natCast_div_natCast _ _
  have hle := fuelQuotient_le raw
  rw [fuelPercent, hround, clamp]
  omega

/-- The percentage is nearer than a half to the exact ratio: the numerator of `x + 1/2` is odd, so it is no multiple of
510 and `x` no half-integer. -/
theorem abs_fuelPercent_sub_fuelRatio_lt (raw : Byte) : |(fuelPercent raw : Rat) - fuelRatio raw| < 1 / 2 := by
  have hratio := fuelRatio_add_half raw
  have hpercent := fuelPercent_eq raw
  generalize hn : 200 * (256 - raw.toNat) + 255 = n at hratio hpercent
  have hlow : ((510 * fuelPercent raw : Nat) : Rat) < n := Nat.cast_lt.mpr (by omega)
  have hhigh : (n : Rat) < (510 * fuelPercent raw + 510 : Nat) := Nat.cast_lt.mpr (by omega)
  push_cast at hlow hhigh hratio
  rw [abs_lt]
  constructor <;> linarith

/-- Settles O21: `x + 1/2` is the fraction `(200·(256 − b0) + 255) / 510`, so its floor is the integer quotient, which the
clamp leaves as it is. -/
theorem fuelRecord : Obligations.FuelRecord := by
  refine ⟨decoderRow_of_body (m := .fuel) (fun _ => rfl) fun b => ?_, fun raw => ⟨fuelQuotient_le raw, ?_⟩⟩
  · rw [← fuelPercent_eq]
    rfl
  · rw [← fuelPercent_eq]
    exact abs_fuelPercent_sub_fuelRatio_lt raw

/-! ### The other nine records -/

theorem engineBody_eq (b : Lanes) :
    engineBody b =
      ⟨b.p0 ++ b.p1, b.p2, if b.p3.getLsbD 4 then 0 else 1, BitVec.ofBool (b.p4.getLsbD 0)⟩ := by
  have hkill : (if bitField b.p3 4 = 0 then 1 else 0 : U1) = if b.p3.getLsbD 4 then 0 else 1 := by
    rw [bitField_eq_ofBool]
    cases b.p3.getLsbD 4 <;> rfl
  rw [engineBody, hkill, bitField_eq_ofBool, bigEndianU16]

/-- Settles O13: the kill field is the inverse of bit 4 of `b[3]`; every other field is the rule's own. -/
theorem engineRecord : Obligations.EngineRecord :=
  decoderRow_of_body (m := .engine) (fun _ => rfl) fun b => congrArg Record.engine (engineBody_eq b)

theorem gearBody_eq (b : Lanes) : gearBody b = ⟨BitVec.ofNat 4 (b.p0.toNat / 16), b.p0.getLsbD 3⟩ := by
  rw [gearBody, hiNibble_eq_ofNat, bitSet_eq_getLsbD]

/-- Settles O14: the gear is the byte's high nibble as it stands, the clutch the bit below it. -/
theorem gearRecord : Obligations.GearRecord :=
  decoderRow_of_body (m := .gear) (fun _ => rfl) fun b => congrArg Record.gear (gearBody_eq b)

theorem throttleBody_eq (b : Lanes) :
    throttleBody b = ⟨!b.p0.getLsbD 1, BitVec.ofBool (b.p1.getLsbD 6), rideModeOf b.p1 b.p3⟩ := by
  rw [throttleBody, bitClear_eq_not_getLsbD, bitField_eq_ofBool]

/-- A key outside R85's table gives the fallback with both raw bytes (R70). -/
theorem rideModeOf_of_not_mem {k : Byte} (x : Byte) (h : k ∉ ([0xAD, 0x2D, 0x6D, 0xED, 0x89, 0xC9] : List Byte)) :
    rideModeOf k x = .rawHex k x := by
  simp only [List.mem_cons, List.not_mem_nil, or_false, not_or] at h
  obtain ⟨hrain, hstreet, hsport, htrack, hunknown, hoff⟩ := h
  rw [rideModeOf, if_neg hrain, if_neg hstreet, if_neg hsport, if_neg htrack, if_neg hunknown, if_neg hoff]

/-- Settles O15: the mode is `rideModeOf`, which computes to its mode on each of the six keys. -/
theorem throttleRecord : Obligations.ThrottleRecord :=
  ⟨rideModeOf,
    decoderRow_of_body (m := .throttle) (fun _ => rfl) fun b => congrArg Record.throttle (throttleBody_eq b),
    fun _ => ⟨rfl, rfl, rfl, rfl, rfl, rfl⟩,
    fun _ x h => rideModeOf_of_not_mem x h,
    fun _ _ => ⟨rfl, rfl, rfl, rfl, rfl, rfl, rfl⟩⟩

theorem wheelBody_eq (b : Lanes) :
    wheelBody b =
      ⟨b.p0 ++ b.p1, b.p2 ++ b.p3, ((b.p5.setWidth 12 <<< 4) ||| (b.p6.setWidth 12 >>> 4) : U12).toInt,
        ((b.p6.setWidth 12 <<< 8) ||| b.p7.setWidth 12 : U12).toInt⟩ := by
  rw [wheelBody, signed12_eq_toInt, signed12_eq_toInt, patternByteHiNibble_eq_shift_or, patternLoNibbleByte_eq_shift_or,
    bigEndianU16, bigEndianU16]

/-- Settles O16: each angle is the two's-complement value of its 12-bit pattern, and the pattern its shift-or form. -/
theorem wheelRecord : Obligations.WheelRecord :=
  decoderRow_of_body (m := .wheel) (fun _ => rfl) fun b => congrArg Record.wheel (wheelBody_eq b)

/-- Settles O17: both fields are the appended bytes, as the rule writes them. -/
theorem brakesRecord : Obligations.BrakesRecord :=
  decoderRow_of_body (m := .brakes) (body := brakesBody) (wrap := .brakes) (fun _ => rfl) fun _ => rfl

theorem tractionBody_eq (b : Lanes) : tractionBody b = ⟨BitVec.ofBool (b.p2.getLsbD 0)⟩ := by
  rw [tractionBody, bitField_eq_ofBool]

/-- Settles O18: the field is bit 0 of `b[2]` as a one-bit word. -/
theorem tractionRecord : Obligations.TractionRecord :=
  decoderRow_of_body (m := .traction) (fun _ => rfl) fun b => congrArg Record.traction (tractionBody_eq b)

theorem sensorsBody_eq (b : Lanes) :
    sensorsBody b =
      ⟨b.p1 ++ b.p2, BitVec.ofNat 4 (b.p3.toNat % 16), !b.p1.getLsbD 7, b.p4.getLsbD 7,
        (b.p6 ++ b.p7 : U16).toInt⟩ := by
  rw [sensorsBody, loNibble_eq_ofNat, bitClear_eq_not_getLsbD, bitSet_eq_getLsbD, bigEndianS16_eq_toInt, bigEndianU16,
    bigEndianU16]

/-- The upper half of the unsigned range is where bit 7 of the high byte is set. -/
theorem append_ge_half_iff (hi lo : Byte) : 32768 ≤ (hi ++ lo : U16).toNat ↔ hi.getLsbD 7 = true := by
  have hvalue : (hi ++ lo : U16).toNat = 256 * hi.toNat + lo.toNat := bigEndianU16_toNat hi lo
  have hlo := lo.isLt
  have hsign : hi.getLsbD 7 = hi.msb := hi.msb_eq_getLsbD_last.symm
  rw [hvalue, hsign, BitVec.msb_eq_true_iff_two_mul_ge]
  omega

/-- Settles O19: the record field by field, and bit 7 of `b[1]` as the leading bit of the assembled `rpm`. -/
theorem sensorsRecord : Obligations.SensorsRecord := by
  refine ⟨decoderRow_of_body (m := .sensors) (fun _ => rfl) fun b => congrArg Record.sensors (sensorsBody_eq b),
    fun b => ?_⟩
  rw [append_ge_half_iff, Bool.not_eq_false']

theorem killswBody_eq (b : Lanes) : killswBody b = ⟨b.p0 &&& 0x10 ≠ 0⟩ := by
  rw [killswBody, bitSet_four_eq_mask]

/-- Settles O20: the tested bit is the mask `0x10`. -/
theorem killswRecord : Obligations.KillswRecord :=
  decoderRow_of_body (m := .killsw) (fun _ => rfl) fun b => congrArg Record.killsw (killswBody_eq b)

/-- Settles O22: the little-endian word's bits 3, 5, 6, 26 and 27 are those of `b[0]` and `b[3]` (R42). -/
theorem lightsRecord : Obligations.LightsRecord :=
  decoderRow_of_body (m := .lights) (fun _ => rfl) fun b => congrArg Record.lights <| by
    simp only [lightsBody_eq, bitSet_eq_getLsbD]

end Sys2Proof.Machine
end

section
/-!
PROOFS. R99 (spec/42_dispatch.md): the default row UNMAPPED.
-/

namespace Sys2Proof.Machine

open Sys2Proof.Claims

/-- On eight bytes the default row drives the record of the raw lanes, with `KNOWN` clear. -/
theorem drives_unmapped_eight {id : Id} {p : Payload} (hid : id ∉ tenIdentifiers) (hlen : p.len = 8) (s : State) :
    Drives (.unmapped id p) s (.registry (.ok (.unmapped p.lanes)) false) := by
  have hp : p = ⟨8, p.lanes⟩ := by rw [← hlen]
  rw [hp]
  exact exec_unmapped_eight hid p.lanes s

/-- Settles O28: the lanes go into the record as they stand; `ERR`, `TAG` and `KNOWN` are read off the driven output. -/
theorem unknownIdentifierIsUnmapped : Obligations.UnknownIdentifierIsUnmapped := fun _ _ s hid hlen =>
  ⟨_, drives_unmapped_eight hid hlen s, rfl, rfl, rfl, rfl⟩

end Sys2Proof.Machine
end

section
/-!
PROOFS. R107 to R109 (spec/43_output_views.md): the text of a ride mode and of an unmapped payload. A byte's lowercase
digits come from the general lowercase writer, whose leading zeros are trimmed before the padding; the uppercase pairs
are joined one after the other.
-/

namespace Sys2Proof.Machine

open Sys2Proof.Claims

/-! ### One digit -/

theorem hexCharUpper_eq_upperDigit : ∀ {d : Nat}, d < 16 → hexCharUpper d = upperDigit d := by
  decide

theorem hexCharLower_eq_lowerDigit : ∀ {d : Nat}, d < 16 → hexCharLower d = lowerDigit d := by
  decide

/-- A byte has two hexadecimal digits. -/
theorem byte_div_sixteen_lt (b : Byte) : b.toNat / 16 < 16 :=
  Nat.div_lt_of_lt_mul b.isLt

/-! ### Trimming and padding (R108) -/

theorem trimZeros_of_ne_zero {d : Nat} (h : d ≠ 0) (ds : List Nat) : trimZeros (d :: ds) = d :: ds := by
  cases d with
  | zero => exact absurd rfl h
  | succ d => cases ds <;> rfl

theorem trimZeros_singleton (d : Nat) : trimZeros [d] = [d] := by
  cases d <;> rfl

/-- A digit above the value's highest is 0. -/
theorem nibblesOf_succ_of_lt {k v : Nat} (h : v < 16 ^ k) : nibblesOf (k + 1) v = 0 :: nibblesOf k v := by
  rw [nibblesOf, Nat.div_eq_of_lt h, Nat.zero_mod]

/-- How many zeros stand above the `k + 1` low digits makes no difference. -/
theorem trimZeros_nibblesOf_add {k v : Nat} (h : v < 16 ^ (k + 1)) (j : Nat) :
    trimZeros (nibblesOf (k + 1 + j) v) = trimZeros (nibblesOf (k + 1) v) := by
  induction j with
  | zero => rfl
  | succ j ih =>
    have hlt : v < 16 ^ (k + 1 + j) := h.trans_le (Nat.pow_le_pow_right (by decide) (Nat.le_add_right _ _))
    have hcons : nibblesOf (k + 1 + j) v = v / 16 ^ (k + j) % 16 :: nibblesOf (k + j) v := by
      rw [Nat.add_right_comm, nibblesOf]
    calc trimZeros (nibblesOf (k + 1 + (j + 1)) v)
        = trimZeros (0 :: nibblesOf (k + 1 + j) v) := congrArg trimZeros (nibblesOf_succ_of_lt hlt)
      _ = trimZeros (nibblesOf (k + 1 + j) v) := by rw [hcons, trimZeros]
      _ = trimZeros (nibblesOf (k + 1) v) := ih

theorem padZeros_of_le {m : Nat} {ds : List Nat} (h : m ≤ ds.length) : padZeros m ds = ds := by
  rw [padZeros, Nat.sub_eq_zero_of_le h, List.replicate_zero, List.nil_append]

/-- Below 16: the one digit, also for the value 0 (R108). -/
theorem hexDigits_of_lt_sixteen {v : Nat} (h : v < 16) (m : Nat) : hexDigits v m = padZeros m [v] := by
  have hdigit : nibblesOf 1 v = [v] := by
    simp only [nibblesOf, Nat.pow_zero, Nat.div_one, Nat.mod_eq_of_lt h]
  have htrim : trimZeros (nibblesOf 8 v) = trimZeros (nibblesOf 1 v) := trimZeros_nibblesOf_add (k := 0) h 7
  rw [hexDigits, htrim, hdigit, trimZeros_singleton]

/-- From 16 to 255: two digits, the first of them not 0 (R108). -/
theorem hexDigits_of_two_digits {v : Nat} (hlow : 16 ≤ v) (hhigh : v / 16 < 16) (m : Nat) :
    hexDigits v m = padZeros m [v / 16, v % 16] := by
  have hlt : v < 16 ^ (1 + 1) := (Nat.div_lt_iff_lt_mul (by decide)).mp hhigh
  have hpair : nibblesOf 2 v = [v / 16, v % 16] := by
    simp only [nibblesOf, Nat.pow_one, Nat.pow_zero, Nat.div_one, Nat.mod_eq_of_lt hhigh]
  have htrim : trimZeros (nibblesOf 8 v) = trimZeros (nibblesOf 2 v) := trimZeros_nibblesOf_add (k := 1) hlt 6
  rw [hexDigits, htrim, hpair, trimZeros_of_ne_zero (Nat.div_pos hlow (by decide)).ne']

/-! ### The ride mode's text (R107, R108) -/

theorem hexLower_toList (v m : Nat) : (hexLower v m).toList = (hexDigits v m).map hexCharLower :=
  String.toList_ofList

/-- With one or two digits at least, a byte is written as one digit only below 16 and without padding. -/
theorem hexLower_byte {m : Nat} (hm : m = 1 ∨ m = 2) (b : Byte) : (hexLower b.toNat m).toList = lowerByte m b := by
  have hhigh := byte_div_sixteen_lt b
  rw [hexLower_toList]
  by_cases hsmall : b.toNat < 16
  · have hdigit := hexCharLower_eq_lowerDigit hsmall
    rw [hexDigits_of_lt_sixteen hsmall]
    obtain rfl | rfl := hm
    · rw [lowerByte, if_pos ⟨rfl, hsmall⟩, ← hdigit]
      rfl
    · rw [lowerByte, if_neg (fun h => absurd h.1 (by decide)), Nat.div_eq_of_lt hsmall,
        Nat.mod_eq_of_lt hsmall, ← hdigit]
      rfl
  · have hle : m ≤ 2 := by omega
    rw [hexDigits_of_two_digits (Nat.le_of_not_lt hsmall) hhigh, padZeros_of_le hle, lowerByte,
      if_neg fun h => hsmall h.2, ← hexCharLower_eq_lowerDigit hhigh,
      ← hexCharLower_eq_lowerDigit (Nat.mod_lt _ (by decide))]
    rfl

theorem rideHexMinDigits_eq_one_or_two : Config.rideHexMinDigits = 1 ∨ Config.rideHexMinDigits = 2 :=
  (ite_eq_or_eq (Config.rideHexPadded = true) 2 1).symm

/-- Settles O34: the six names compute; each byte of the fallback label is written by `hexLower`. -/
theorem rideModeLabelText : Obligations.RideModeLabelText := by
  refine ⟨rideHexMinDigits_eq_one_or_two, fun m hm => ⟨rfl, rfl, rfl, rfl, rfl, rfl, fun k x => ?_⟩⟩
  rw [rideModeLabel, String.toList_append, String.toList_append, String.toList_append, hexLower_byte hm,
    hexLower_byte hm]

/-! ### The unmapped payload's text (R109) -/

theorem hex2U_toList (b : Byte) : (hex2U b).toList = upperPair b := by
  rw [hex2U, String.toList_ofList, upperPair, hexCharUpper_eq_upperDigit (byte_div_sixteen_lt b),
    hexCharUpper_eq_upperDigit (Nat.mod_lt b.toNat (by decide))]

theorem joinWith_toList (sep : String) (ss : List String) :
    (joinWith sep ss).toList = sep.toList.intercalate (ss.map String.toList) := by
  induction ss using joinWith.induct with
  | case1 => rfl
  | case2 s => exact (List.append_nil _).symm
  | case3 s t ss ih => simp [joinWith, ih, List.intercalate]

/-- The text as characters: the bytes' uppercase pairs with one space between. -/
theorem unmappedText_toList (b : Lanes) : (unmappedText b).toList = [' '].intercalate (b.toList.map upperPair) := by
  have hpairs : String.toList ∘ hex2U = upperPair := funext hex2U_toList
  rw [unmappedText, joinWith_toList, List.map_map, hpairs]
  rfl

/-- Settles O35: the eight pairs written out one after the other; eight times two characters and seven spaces. -/
theorem unmappedTextFormat : Obligations.UnmappedTextFormat := fun b => by
  have htext := unmappedText_toList b
  refine ⟨htext, ?_⟩
  rw [← String.length_toList, htext]
  rfl

end Sys2Proof.Machine
end

section
/-!
PROOFS. R115 (spec/60_exceptions.md): the soft failure "no record". Every decoder says it exactly below its minimum
length; the registry evaluates a decoder on eight bytes only, where no decoder says it (R101).
-/

namespace Sys2Proof.Machine

open Sys2Proof.Claims

/-! ### When a decoder has a record, and which it cannot be -/

/-- R56's table is the model's minimum length, message by message. -/
theorem eq_minLen_of_mem_minLengths {m : Message} {n : Nat} (h : (m, n) ∈ minLengths) : n = m.minLen := by
  have htable : minLengths = Message.all.map fun m => (m, m.minLen) := rfl
  obtain ⟨m', -, hpair⟩ := List.mem_map.mp (htable ▸ h)
  obtain ⟨rfl, rfl⟩ := Prod.mk.inj hpair
  rfl

theorem runDecoder_eq_none_iff (m : Message) (p : Payload) : runDecoder m p = none ↔ p.len < m.minLen := by
  cases m <;> exact Option.map_eq_none_iff.trans decoderTemplate_eq_none

/-- A decoder's record is its message's variant, never the empty record (R81). -/
theorem runDecoder_ne_some_empty (m : Message) (p : Payload) : runDecoder m p ≠ some .empty := fun h => by
  cases m <;> obtain ⟨_, -, hrecord⟩ := Option.map_eq_some_iff.mp h <;> cases hrecord

/-- The port `VALID` of a decoder sub-block tells whether there is a record (R36). -/
theorem validPort_standalone (r : Option Record) :
    (Output.standalone r).validPort = some (if r = none then 0 else 1) := by
  cases r <;> rfl

/-! ### The registry -/

/-- An instruction drives one output only. -/
theorem drives_unique {i : Instr} {s : State} {o o' : Output} (h : Drives i s o) (h' : Drives i s o') : o = o' :=
  State.drive_injective s (Host.Outcome.next.inj (h.symm.trans h'))

theorem drives_registry (m : Message) (p : Payload) (s : State) :
    Drives (.ofMessage m .registry p) s
      (.registry (registryDecode m.identifier p) (isKnownIdentifier m.identifier)) :=
  (exec_ofMessage m .registry p s).trans (evalMessage_registry m p s)

/-- On a message's identifier the selection is that message's decoder, or the empty record where it has none (R98,
R100). -/
theorem selectRecord_identifier (m : Message) (p : Payload) :
    selectRecord m.identifier p = (runDecoder m p).getD .empty := by
  simp only [selectRecord, messageOf_identifier]
  cases runDecoder m p <;> rfl

/-- The length check admits eight bytes only, and from there on every decoder has a record (R97, R101). -/
theorem registryDecode_identifier_ne_empty (m : Message) (p : Payload) :
    registryDecode m.identifier p ≠ .ok .empty := by
  by_cases hlen : p.len = 8
  · have hsome : runDecoder m p ≠ none := fun hnone => by
      have hshort := (runDecoder_eq_none_iff m p).mp hnone
      have := minLen_le_eight m
      omega
    obtain ⟨r, hr⟩ := Option.ne_none_iff_exists'.mp hsome
    rw [registryDecode_length_eight hlen, selectRecord_identifier, hr]
    rintro ⟨⟩
    exact runDecoder_ne_some_empty m p hr
  · rw [registryDecode_bad_length hlen]
    nofun

/-- Settles O27: standalone, "no record" is the template's length test and the ports follow it; under `decode` the empty
record would have to come from a decoder that has no record on eight bytes. -/
theorem noRecordExactlyBelowMinimumLength : Obligations.NoRecordExactlyBelowMinimumLength := by
  intro m n p s hmem
  obtain rfl := eq_minLen_of_mem_minLengths hmem
  have hnone := runDecoder_eq_none_iff m p
  refine ⟨⟨runDecoder m p, drives_standalone m p s, hnone, ?_, rfl⟩, fun known hempty => ?_⟩
  · simp only [validPort_standalone, hnone]
  · have hresult := (Output.registry.inj (drives_unique (drives_registry m p s) hempty)).1
    exact registryDecode_identifier_ne_empty m p hresult

end Sys2Proof.Machine
end

section
/-!
PROOFS. R54, R55 (spec/30_encoding.md): lines and instructions. Every fact goes through two numbers, the word's high
part (the identifier) and its low 68 bits (`packPayload`); the round trips in both directions are read off them.
-/

namespace Sys2Proof.Machine

open Sys2Proof.Claims

/-! ### Instructions by row: the ten message rows are one case -/

/-- Every instruction is a message row, UNMAPPED, a query or a primitive. -/
theorem instr_by_row {motive : Instr → Prop} (message : ∀ m f p, motive (.ofMessage m f p))
    (unmapped : ∀ id p, motive (.unmapped id p)) (isknown : ∀ id, motive (.isknown id))
    (nameof : ∀ id, motive (.nameof id)) (lonib : ∀ x, motive (.lonib x)) (hinib : ∀ x, motive (.hinib x))
    (beu16 : ∀ hi lo, motive (.beu16 hi lo)) (bes16 : ∀ hi lo, motive (.bes16 hi lo)) (s12 : ∀ v, motive (.s12 v)) :
    ∀ i, motive i
  | .engine f p => message .engine f p
  | .gear f p => message .gear f p
  | .throttle f p => message .throttle f p
  | .wheel f p => message .wheel f p
  | .brakes f p => message .brakes f p
  | .traction f p => message .traction f p
  | .sensors f p => message .sensors f p
  | .killsw f p => message .killsw f p
  | .fuel f p => message .fuel f p
  | .lights f p => message .lights f p
  | .unmapped id p => unmapped id p
  | .isknown id => isknown id
  | .nameof id => nameof id
  | .lonib x => lonib x
  | .hinib x => hinib x
  | .beu16 hi lo => beu16 hi lo
  | .bes16 hi lo => bes16 hi lo
  | .s12 v => s12 v

theorem encode_ofMessage (m : Message) (f : Form) (p : Payload) : encode (.ofMessage m f p) = messageLine m f p := by
  cases m <;> rfl

theorem wellFormed_ofMessage (m : Message) (f : Form) (p : Payload) :
    (Instr.ofMessage m f p).wellFormed = p.fitsPort := by
  cases m <;> rfl

theorem fitsPort_iff (p : Payload) : p.fitsPort = true ↔ p.len < 16 := decide_eq_true_iff

/-! ### The row an identifier selects -/

theorem decodeFrame_identifier (m : Message) (p : Payload) :
    decodeFrame m.identifier p = .ofMessage m .registry p := by
  rw [decodeFrame, messageOf_identifier]

theorem decodeFrame_of_messageOf_none {id : Id} (h : messageOf id = none) (p : Payload) :
    decodeFrame id p = .unmapped id p := by
  rw [decodeFrame, h]

/-- An identifier is a message's, or it selects no message. -/
theorem identifier_cases (id : Id) : (∃ m : Message, id = m.identifier) ∨ messageOf id = none := by
  cases h : messageOf id with
  | some m => exact .inl ⟨m, (identifier_of_messageOf h).symm⟩
  | none => exact .inr rfl

theorem encode_decodeFrame (id : Id) (p : Payload) : encode (decodeFrame id p) = registryLine id p := by
  obtain ⟨m, rfl⟩ | h := identifier_cases id
  · rw [decodeFrame_identifier, encode_ofMessage, messageLine]
  · rw [decodeFrame_of_messageOf_none h, encode]

theorem unmappedIdentifierOk_iff (id : Id) : unmappedIdentifierOk id = true ↔ messageOf id = none := by
  rw [unmappedIdentifierOk, isKnownIdentifier_eq_isSome, Option.not_isSome, Option.isNone_iff_eq_none]

theorem wellFormed_decodeFrame (id : Id) (p : Payload) : (decodeFrame id p).wellFormed = p.fitsPort := by
  obtain ⟨m, rfl⟩ | h := identifier_cases id
  · rw [decodeFrame_identifier, wellFormed_ofMessage]
  · rw [decodeFrame_of_messageOf_none h, Instr.wellFormed, (unmappedIdentifierOk_iff id).mpr h, Bool.true_and]

/-! ### When a line decodes -/

theorem decode_of_fits {l : Line} (h : l.word.toNat < 2 ^ l.block.width) :
    decode l = .ok (decodeFitting l.block l.word) :=
  if_pos h

theorem decode_of_too_wide {l : Line} (h : 2 ^ l.block.width ≤ l.word.toNat) :
    decode l = .error (.strayBits l.block l.block.width) :=
  if_neg (Nat.not_lt.mpr h)

theorem decode_eq_ok {l : Line} {i : Instr} (h : decode l = .ok i) :
    l.word.toNat < 2 ^ l.block.width ∧ i = decodeFitting l.block l.word := by
  obtain hfits | hwide := Nat.lt_or_ge l.word.toNat (2 ^ l.block.width)
  · rw [decode_of_fits hfits] at h
    exact ⟨hfits, (Except.ok.inj h).symm⟩
  · rw [decode_of_too_wide hwide] at h
    cases h

theorem blockWidth_le (b : Block) : b.width ≤ 104 := by
  cases b <;> simp [Block.width]

/-- A number that fits a block's ports stands on them as it is. -/
theorem portLine_word_toNat {b : Block} {v : Nat} (h : v < 2 ^ b.width) : (portLine b v).word.toNat = v := by
  have hword : v < 2 ^ 104 := h.trans_le (Nat.pow_le_pow_right (by decide) (blockWidth_le b))
  exact (BitVec.toNat_ofNat v 104).trans (Nat.mod_eq_of_lt hword)

theorem decode_portLine {b : Block} {v : Nat} (h : v < 2 ^ b.width) :
    decode (portLine b v) = .ok (decodeFitting b (portLine b v).word) :=
  decode_of_fits (Laws.EncodeFits.portLine_fits h)

/-- A line is the port line of its block and its word's value. -/
theorem portLine_eq {l : Line} {b : Block} {v : Nat} (hb : l.block = b) (hv : l.word.toNat = v) : portLine b v = l := by
  subst hb hv
  rw [portLine, BitVec.ofNat_toNat, BitVec.setWidth_eq]

/-- A low slice of a word, by the word's value. -/
theorem extractLsb_eq_of_toNat {w n lo : Nat} {v : BitVec w} {x : BitVec n} (h : v.toNat / 2 ^ lo % 2 ^ n = x.toNat) :
    v.extractLsb' lo n = x :=
  BitVec.eq_of_toNat_eq ((extractLsb_toNat v lo n).trans h)

/-! ### The frame word (R54) -/

theorem framePayload_len_lt (w : PortWord) : (framePayload w).len < 16 := (w.extractLsb' 64 4).isLt

/-- The last digit of a number written in base 256, and the digits before it. -/
theorem byte_digit_inj {a b : Nat} {x y : Byte} (h : 256 * a + x.toNat = 256 * b + y.toNat) : a = b ∧ x = y := by
  have hx := x.isLt
  have hy := y.isLt
  exact ⟨by omega, BitVec.eq_of_toNat_eq (by omega)⟩

/-- The packed payload is a number in base 256, its digits the lanes and its leading part `LEN`. -/
theorem packPayload_eq_horner (p : Payload) :
    packPayload p =
      256 * (256 * (256 * (256 * (256 * (256 * (256 * (256 * (p.len % 16) + p.lanes.p0.toNat) + p.lanes.p1.toNat)
        + p.lanes.p2.toNat) + p.lanes.p3.toNat) + p.lanes.p4.toNat) + p.lanes.p5.toNat) + p.lanes.p6.toNat)
        + p.lanes.p7.toNat := by
  rw [packPayload]
  ring

/-- A slice with the eight bits below it is one longer slice. -/
theorem slice_append_byte (n lo k : Nat) :
    256 * (n / 2 ^ (lo + 8) % 2 ^ k) + n / 2 ^ lo % 2 ^ 8 = n / 2 ^ lo % 2 ^ (k + 8) := by
  rw [Nat.pow_add 2 lo, ← Nat.div_div_eq_div_mul, Nat.add_comm k, Nat.pow_add 2 8, Nat.mod_mul, Nat.add_comm]

/-- The low 68 bits of a word are its payload packed. -/
theorem packPayload_framePayload (w : PortWord) : packPayload (framePayload w) = w.toNat % 2 ^ 68 := by
  rw [packPayload_eq_horner, Nat.mod_eq_of_lt (framePayload_len_lt w)]
  simp only [framePayload, extractLsb_toNat]
  rw [slice_append_byte _ 56 4, slice_append_byte _ 48 12, slice_append_byte _ 40 20, slice_append_byte _ 32 28,
    slice_append_byte _ 24 36, slice_append_byte _ 16 44, slice_append_byte _ 8 52, slice_append_byte _ 0 60,
    Nat.pow_zero, Nat.div_one]

theorem packPayload_inj {p q : Payload} (hp : p.len < 16) (hq : q.len < 16) (h : packPayload p = packPayload q) :
    p = q := by
  obtain ⟨len, p0, p1, p2, p3, p4, p5, p6, p7⟩ := p
  obtain ⟨len', q0, q1, q2, q3, q4, q5, q6, q7⟩ := q
  rw [packPayload_eq_horner, packPayload_eq_horner] at h
  obtain ⟨h, rfl⟩ := byte_digit_inj h
  obtain ⟨h, rfl⟩ := byte_digit_inj h
  obtain ⟨h, rfl⟩ := byte_digit_inj h
  obtain ⟨h, rfl⟩ := byte_digit_inj h
  obtain ⟨h, rfl⟩ := byte_digit_inj h
  obtain ⟨h, rfl⟩ := byte_digit_inj h
  obtain ⟨h, rfl⟩ := byte_digit_inj h
  obtain ⟨h, rfl⟩ := byte_digit_inj h
  obtain rfl : len = len' := (Nat.mod_eq_of_lt hp).symm.trans (h.trans (Nat.mod_eq_of_lt hq))
  rfl

/-- A payload that fits the ports is read back from the low 68 bits. -/
theorem framePayload_of_low_bits {w : PortWord} {p : Payload} (hlen : p.len < 16)
    (h : w.toNat % 2 ^ 68 = packPayload p) : framePayload w = p :=
  packPayload_inj (framePayload_len_lt w) hlen ((packPayload_framePayload w).trans h)

theorem registryWord_lt (id : Id) (p : Payload) : 2 ^ 68 * id.toNat + packPayload p < 2 ^ 100 := by
  have hpack := Laws.EncodeFits.packPayload_lt p
  have hid := id.isLt
  omega

/-- The registry's line decodes to the row of its identifier with its payload. -/
theorem decode_registryLine (id : Id) {p : Payload} (hlen : p.len < 16) :
    decode (registryLine id p) = .ok (decodeFrame id p) := by
  have hpack := Laws.EncodeFits.packPayload_lt p
  have hid := id.isLt
  have hword : (registryLine id p).word.toNat = 2 ^ 68 * id.toNat + packPayload p :=
    portLine_word_toNat (b := .registry) (registryWord_lt id p)
  have hframeId : frameId (registryLine id p).word = id := extractLsb_eq_of_toNat (by rw [hword]; omega)
  have hpayload : framePayload (registryLine id p).word = p := framePayload_of_low_bits hlen (by rw [hword]; omega)
  calc decode (registryLine id p)
      = .ok (decodeFrame (frameId (registryLine id p).word) (framePayload (registryLine id p).word)) :=
        decode_portLine (b := .registry) (registryWord_lt id p)
    _ = .ok (decodeFrame id p) := by rw [hframeId, hpayload]

/-- A decoder sub-block's line decodes to its message's standalone row. -/
theorem decode_standaloneLine (m : Message) {p : Payload} (hlen : p.len < 16) :
    decode (portLine (.decoder m) (packPayload p)) = .ok (.ofMessage m .standalone p) := by
  have hfits : packPayload p < 2 ^ (Block.decoder m).width := Laws.EncodeFits.packPayload_lt p
  have hpayload : framePayload (portLine (.decoder m) (packPayload p)).word = p :=
    framePayload_of_low_bits hlen (by rw [portLine_word_toNat hfits]; exact Nat.mod_eq_of_lt hfits)
  rw [decode_portLine hfits, decodeFitting, hpayload]

theorem decode_messageLine (m : Message) (f : Form) {p : Payload} (hlen : p.len < 16) :
    decode (messageLine m f p) = .ok (.ofMessage m f p) := by
  cases f with
  | registry => rw [messageLine, decode_registryLine _ hlen, decodeFrame_identifier]
  | standalone => exact decode_standaloneLine m hlen

/-! ### One operand and two operands on the low ports -/

/-- An operand alone on a block's ports is the word's low slice. -/
theorem portLine_extract {b : Block} {n : Nat} (x : BitVec n) (hwidth : b.width = n) :
    (portLine b x.toNat).word.extractLsb' 0 n = x :=
  extractLsb_eq_of_toNat <| by
    rw [portLine_word_toNat (hwidth ▸ x.isLt), Nat.pow_zero, Nat.div_one, Nat.mod_eq_of_lt x.isLt]

theorem bytePair_lt (hi lo : Byte) : 2 ^ 8 * hi.toNat + lo.toNat < 2 ^ 16 := by
  have hhi := hi.isLt
  have hlo := lo.isLt
  omega

/-- Of two operands on a block's ports the first is the high byte. -/
theorem portLine_extract_bytePair {b : Block} (hwidth : b.width = 16) (hi lo : Byte) :
    (portLine b (2 ^ 8 * hi.toNat + lo.toNat)).word.extractLsb' 8 8 = hi ∧
      (portLine b (2 ^ 8 * hi.toNat + lo.toNat)).word.extractLsb' 0 8 = lo := by
  have hhi := hi.isLt
  have hlo := lo.isLt
  have hword := portLine_word_toNat (hwidth ▸ bytePair_lt hi lo)
  exact ⟨extractLsb_eq_of_toNat (by rw [hword]; omega), extractLsb_eq_of_toNat (by rw [hword]; omega)⟩

/-! ### Instruction to line and back -/

/-- Settles O1: each row's line fits its block, and the slices of the word are the operands. -/
theorem decodeOfEncodeIsInstr : Obligations.DecodeOfEncodeIsInstr := by
  intro i hwf
  cases i using instr_by_row with
  | message m f p =>
    rw [wellFormed_ofMessage, fitsPort_iff] at hwf
    rw [encode_ofMessage, decode_messageLine m f hwf]
  | unmapped id p =>
    obtain ⟨hid, hfits⟩ := Bool.and_eq_true_iff.mp hwf
    have hlen := (fitsPort_iff p).mp hfits
    rw [encode, decode_registryLine id hlen, decodeFrame_of_messageOf_none ((unmappedIdentifierOk_iff id).mp hid)]
  | isknown id => rw [encode, decode_portLine id.isLt, decodeFitting, portLine_extract id rfl]
  | nameof id => rw [encode, decode_portLine id.isLt, decodeFitting, portLine_extract id rfl]
  | lonib x => rw [encode, decode_portLine x.isLt, decodeFitting, portLine_extract x rfl]
  | hinib x => rw [encode, decode_portLine x.isLt, decodeFitting, portLine_extract x rfl]
  | beu16 hi lo =>
    obtain ⟨hhi, hlo⟩ := portLine_extract_bytePair (b := .bigEndianU16) rfl hi lo
    rw [encode, decode_portLine (bytePair_lt hi lo), decodeFitting, hhi, hlo]
  | bes16 hi lo =>
    obtain ⟨hhi, hlo⟩ := portLine_extract_bytePair (b := .bigEndianS16) rfl hi lo
    rw [encode, decode_portLine (bytePair_lt hi lo), decodeFitting, hhi, hlo]
  | s12 v => rw [encode, decode_portLine v.isLt, decodeFitting, portLine_extract v rfl]

/-- The identifier and the packed payload of a word that fits the registry's ports add up to it. -/
theorem registryWord_eq {w : PortWord} (h : w.toNat < 2 ^ 100) :
    w.toNat = 2 ^ 68 * (frameId w).toNat + packPayload (framePayload w) := by
  rw [packPayload_framePayload, frameId, extractLsb_toNat]
  omega

/-- The low slice of a word that fits it is the word. -/
theorem toNat_eq_extract_of_fits {n : Nat} {w : PortWord} (h : w.toNat < 2 ^ n) :
    w.toNat = (w.extractLsb' 0 n).toNat := by
  rw [extractLsb_toNat, Nat.pow_zero, Nat.div_one, Nat.mod_eq_of_lt h]

theorem toNat_eq_bytePair_of_fits {w : PortWord} (h : w.toNat < 2 ^ 16) :
    w.toNat = 2 ^ 8 * (w.extractLsb' 8 8).toNat + (w.extractLsb' 0 8).toNat := by
  rw [extractLsb_toNat, extractLsb_toNat]
  omega

theorem wellFormed_decodeFitting (b : Block) (w : PortWord) : (decodeFitting b w).wellFormed = true := by
  have hfits : (framePayload w).fitsPort = true := (fitsPort_iff _).mpr (framePayload_len_lt w)
  cases b with
  | registry => rw [decodeFitting, wellFormed_decodeFrame, hfits]
  | decoder m => rw [decodeFitting, wellFormed_ofMessage, hfits]
  | _ => rfl

/-- The instruction of a word that fits the ports is encoded as that word. -/
theorem encode_decodeFitting {b : Block} {w : PortWord} (h : w.toNat < 2 ^ b.width) :
    encode (decodeFitting b w) = ⟨b, w⟩ := by
  cases b with
  | registry =>
    rw [decodeFitting, encode_decodeFrame]
    exact portLine_eq rfl (registryWord_eq h)
  | decoder m =>
    rw [decodeFitting, encode_ofMessage]
    exact portLine_eq rfl (by rw [packPayload_framePayload]; exact (Nat.mod_eq_of_lt h).symm)
  | bigEndianU16 => exact portLine_eq rfl (toNat_eq_bytePair_of_fits h)
  | bigEndianS16 => exact portLine_eq rfl (toNat_eq_bytePair_of_fits h)
  | _ => exact portLine_eq rfl (toNat_eq_extract_of_fits h)

/-- Settles O2: a word that fits its block's ports is the packing of the slices it decodes to. -/
theorem encodeOfDecodeIsLine : Obligations.EncodeOfDecodeIsLine := by
  intro l i h
  obtain ⟨hfits, rfl⟩ := decode_eq_ok h
  exact ⟨wellFormed_decodeFitting l.block l.word, encode_decodeFitting hfits⟩

/-! ### The other statements on encoding -/

/-- Settles O3: the decoder evaluated on seven closed words. -/
theorem specWordsDecode : Obligations.SpecWordsDecode := by
  unfold Obligations.SpecWordsDecode
  decide

/-- Settles O4: the registry's line decodes to the row of its identifier; the ten are looked up by computing. -/
theorem frameWordSelectsRowByIdentifier : Obligations.FrameWordSelectsRowByIdentifier := by
  intro p hlen
  refine ⟨decode_registryLine _ hlen, decode_registryLine _ hlen, decode_registryLine _ hlen,
    decode_registryLine _ hlen, decode_registryLine _ hlen, decode_registryLine _ hlen, decode_registryLine _ hlen,
    decode_registryLine _ hlen, decode_registryLine _ hlen, decode_registryLine _ hlen, fun id hid => ?_⟩
  rw [decode_registryLine id hlen, decodeFrame_of_messageOf_none (messageOf_eq_none hid)]

theorem payloadOfBytes_fitsPort (bytes : List Byte) : (payloadOfBytes bytes).fitsPort = true ↔ bytes.length < 16 :=
  fitsPort_iff _

theorem lineOfSource_eq_some {src : SourceLine} {l : Line} (h : lineOfSource src = some l) :
    (instrOfSource src).wellFormed = true ∧ l = encode (instrOfSource src) := by
  rw [lineOfSource, Option.ite_none_right_eq_some] at h
  exact ⟨h.1, (Option.some.inj h.2).symm⟩

theorem lineOfSource_eq_none_iff (src : SourceLine) :
    lineOfSource src = none ↔ ¬ (instrOfSource src).wellFormed = true := by
  simp [lineOfSource]

/-- Settles O43: a port form is an encoding, which decodes back (O1); only the two kinds of line with a list can be
ill formed, by the length of the list. -/
theorem sourceLineHasPortForm : Obligations.SourceLineHasPortForm := by
  intro src
  refine ⟨fun l h => ?_, ?_⟩
  · obtain ⟨hwf, rfl⟩ := lineOfSource_eq_some h
    exact decodeOfEncodeIsInstr _ hwf
  · rw [lineOfSource_eq_none_iff]
    cases src with
    | decode id bytes =>
      rw [instrOfSource, wellFormed_decodeFrame, payloadOfBytes_fitsPort]
      simp
    | message m bytes =>
      rw [instrOfSource, wellFormed_ofMessage, payloadOfBytes_fitsPort]
      simp
    | _ => simp [instrOfSource, Instr.wellFormed]

end Sys2Proof.Machine
end

section
/-!
PROOFS. R96 to R104 (spec/42_dispatch.md) and the payload reads (spec/20_memory.md R38, R40): the registry on every
identifier, and the lanes below `LEN` as all that a row reads.
-/

namespace Sys2Proof.Machine

open Sys2Proof.Claims

/-! ### One registry evaluation -/

/-- The query's value is membership in the ten identifiers of R55. -/
theorem isKnownIdentifier_eq_decide (id : Id) : isKnownIdentifier id = decide (id ∈ tenIdentifiers) :=
  List.contains_eq_mem id tenIdentifiers

theorem isKnownIdentifier_identifier (m : Message) : isKnownIdentifier m.identifier = true := by
  rw [isKnownIdentifier_eq_isSome, messageOf_identifier, Option.isSome_some]

/-- The row an identifier selects drives the registry's result, whatever the length. -/
theorem drives_decodeFrame (id : Id) (p : Payload) (s : State) :
    Drives (decodeFrame id p) s (.registry (registryDecode id p) (isKnownIdentifier id)) := by
  obtain ⟨m, rfl⟩ | h := identifier_cases id
  · rw [decodeFrame_identifier]
    exact drives_registry m p s
  · rw [decodeFrame_of_messageOf_none h]
    exact evalRegistry_eq id p s

/-- No decoder answers "no record" from its minimum length on (R81). -/
theorem runDecoder_isSome {m : Message} {p : Payload} (h : m.minLen ≤ p.len) : ∃ r, runDecoder m p = some r :=
  Option.ne_none_iff_exists'.mp (mt (runDecoder_eq_none_iff m p).mp (Nat.not_lt.mpr h))

theorem runDecoder_isSome_eight (m : Message) {p : Payload} (h : p.len = 8) : ∃ r, runDecoder m p = some r :=
  runDecoder_isSome (h ▸ minLen_le_eight m)

/-- A decoder's record has its message's code, the place in R55's table. -/
theorem tag_of_runDecoder {m : Message} {p : Payload} {r : Record} (h : runDecoder m p = some r) :
    Message.all[r.tag.toNat]? = some m := by
  cases m <;> obtain ⟨_, -, rfl⟩ := Option.map_eq_some_iff.mp h <;> rfl

/-- For a known identifier the selection is its decoder's record (R98). -/
theorem selectRecord_of_runDecoder {m : Message} {p : Payload} {r : Record} (h : runDecoder m p = some r) :
    selectRecord m.identifier p = r := by
  rw [selectRecord_identifier, h, Option.getD_some]

/-- For every other identifier the selection is the fallback (R99). -/
theorem selectRecord_of_messageOf_none {id : Id} (h : messageOf id = none) (p : Payload) :
    selectRecord id p = .unmapped p.lanes := by
  rw [selectRecord, h]

/-- On eight bytes the registry never selects the empty record (R101). -/
theorem selectRecord_eight_ne_empty (id : Id) {p : Payload} (hlen : p.len = 8) : selectRecord id p ≠ .empty := by
  obtain ⟨m, rfl⟩ | h := identifier_cases id
  · obtain ⟨r, hr⟩ := runDecoder_isSome_eight m hlen
    rw [selectRecord_of_runDecoder hr]
    rintro rfl
    exact runDecoder_ne_some_empty m p hr
  · rw [selectRecord_of_messageOf_none h]
    nofun

/-- Only the empty record has a code above 10 (R20). -/
theorem tag_le_ten {r : Record} (h : r ≠ .empty) : r.tag.toNat ≤ 10 := by
  cases r with
  | empty => exact absurd rfl h
  | _ => simp [Record.tag]

/-! ### The statements on the registry -/

/-- Settles O26: on any length but 8 the registry's result is the failure; the ports are read off it. -/
theorem badLengthRaisesInvalidArgument : Obligations.BadLengthRaisesInvalidArgument := by
  refine ⟨fun m p s => ⟨_, drives_standalone m p s⟩, fun id p s hlen => ?_⟩
  have hdrives := drives_decodeFrame id p s
  rw [registryDecode_bad_length hlen, isKnownIdentifier_eq_decide] at hdrives
  exact ⟨_, hdrives, rfl, rfl, rfl, rfl, rfl⟩

/-- Settles O29: eight bytes are enough for every decoder, so the selection is its record or the fallback. -/
theorem registryIsTotalAndNeverEmpty : Obligations.RegistryIsTotalAndNeverEmpty := by
  refine ⟨fun id p s hlen => ?_, fun m p s hlen => ?_⟩
  · have hdrives := drives_decodeFrame id p s
    have hne := selectRecord_eight_ne_empty id hlen
    rw [registryDecode_length_eight hlen] at hdrives
    exact ⟨selectRecord id p, _, _, hdrives, hne, rfl, rfl, tag_le_ten hne⟩
  · obtain ⟨r, hr⟩ := runDecoder_isSome_eight m hlen
    exact ⟨r, hr ▸ drives_standalone m p s, drives_registry_eight hlen hr s, tag_of_runDecoder hr⟩

/-- Settles O30: both structures check the length first, and the first of the ten results whose identifier matches is
that of the message the identifier selects. -/
theorem parallelMultiplexerIsEquivalent : Obligations.ParallelMultiplexerIsEquivalent := fun id p => by
  have hhead : (Message.all.filter fun m => m.identifier == id).head? = messageOf id := List.head?_filter
  simp only [parallelDecode, List.filter_map, Function.comp_def, registryDecode]
  cases hfilter : Message.all.filter fun m => m.identifier == id with
  | nil =>
    rw [hfilter, List.head?_nil] at hhead
    simp only [selectRecord_of_messageOf_none hhead.symm, List.map_nil]
  | cons m ms =>
    rw [hfilter, List.head?_cons] at hhead
    simp only [← identifier_of_messageOf hhead.symm, selectRecord_identifier, List.map_cons]

/-- Settles O31: the query's value and the port `KNOWN` are one function of the identifier. -/
theorem isknownIsMembership : Obligations.IsknownIsMembership := fun id s => by
  rw [← isKnownIdentifier_eq_decide]
  exact ⟨rfl, fun p => ⟨_, drives_decodeFrame id p s, rfl⟩⟩

/-! ### What of the payload a row reads -/

/-- The lanes as `memRead` gives them, 0 where there is nothing to read. -/
def readLanes (p : Payload) : Lanes where
  p0 := (memRead p 0).getD 0
  p1 := (memRead p 1).getD 0
  p2 := (memRead p 2).getD 0
  p3 := (memRead p 3).getD 0
  p4 := (memRead p 4).getD 0
  p5 := (memRead p 5).getD 0
  p6 := (memRead p 6).getD 0
  p7 := (memRead p 7).getD 0

theorem readLanes_congr {p q : Payload} (h : memRead p = memRead q) : readLanes p = readLanes q := by
  simp only [readLanes, h]

/-- On eight bytes every lane is read. -/
theorem readLanes_eight {p : Payload} (h : p.len = 8) : readLanes p = p.lanes := by
  obtain ⟨n, b⟩ := p
  subst h
  rfl

theorem memRead_of_lt {p : Payload} {i : Nat} (h : i < p.len) : memRead p i = laneAt p.lanes i := if_pos h

theorem memRead_of_ge {p : Payload} {i : Nat} (h : p.len ≤ i) : memRead p i = none := if_neg (Nat.not_lt.mpr h)

/-- Above the minimum length the template ignores how long the payload is (R81). -/
theorem decoderTemplate_truncate {α : Type} {m : Message} {body : Lanes → α} {p : Payload} (h : m.minLen ≤ p.len) :
    decoderTemplate m body p = decoderTemplate m body ⟨m.minLen, p.lanes⟩ :=
  (decoderTemplate_some h).trans (decoderTemplate_some (p := ⟨m.minLen, p.lanes⟩) le_rfl).symm

/-- From its minimum length on, a decoder reads only the bytes below it (R56 to R66). -/
theorem runDecoder_eq_readLanes {m : Message} {p : Payload} (h : m.minLen ≤ p.len) :
    runDecoder m p = runDecoder m ⟨m.minLen, readLanes ⟨m.minLen, p.lanes⟩⟩ := by
  have htruncate : runDecoder m p = runDecoder m ⟨m.minLen, p.lanes⟩ := by
    cases m <;> exact congrArg (Option.map _) (decoderTemplate_truncate h)
  rw [htruncate]
  cases m <;> rfl

/-- Payloads that agree below a decoder's minimum length, which both reach, give one record. -/
theorem runDecoder_congr_of_reads {m : Message} {p q : Payload} (hp : m.minLen ≤ p.len) (hq : m.minLen ≤ q.len)
    (h : ∀ i, i < m.minLen → memRead p i = memRead q i) : runDecoder m p = runDecoder m q := by
  have hreads : memRead ⟨m.minLen, p.lanes⟩ = memRead ⟨m.minLen, q.lanes⟩ := funext fun i => by
    obtain hi | hi := Nat.lt_or_ge i m.minLen
    · have hlane := h i hi
      rw [memRead_of_lt (hi.trans_le hp), memRead_of_lt (hi.trans_le hq)] at hlane
      rw [memRead_of_lt hi, memRead_of_lt hi, hlane]
    · rw [memRead_of_ge hi, memRead_of_ge hi]
  rw [runDecoder_eq_readLanes hp, runDecoder_eq_readLanes hq, readLanes_congr hreads]

/-- Payloads that agree below `LEN` answer every read alike (R38). -/
theorem memRead_congr {p q : Payload} (h : AgreeBelowLength p q) : memRead p = memRead q := funext fun i => by
  obtain ⟨hlen, hlanes⟩ := h
  obtain hi | hi := Nat.lt_or_ge i p.len
  · exact hlanes i hi
  · rw [memRead_of_ge hi, memRead_of_ge (hlen ▸ hi)]

theorem runDecoder_congr_of_agree {p q : Payload} (h : AgreeBelowLength p q) (m : Message) :
    runDecoder m p = runDecoder m q := by
  obtain hshort | hlong := Nat.lt_or_ge p.len m.minLen
  · rw [(runDecoder_eq_none_iff m p).mpr hshort, (runDecoder_eq_none_iff m q).mpr (h.1 ▸ hshort)]
  · exact runDecoder_congr_of_reads hlong (h.1 ▸ hlong) fun i _ => congrFun (memRead_congr h) i

theorem registryDecode_congr_of_agree {p q : Payload} (h : AgreeBelowLength p q) (id : Id) :
    registryDecode id p = registryDecode id q := by
  by_cases hlen : p.len = 8
  · have hlanes : p.lanes = q.lanes := by
      rw [← readLanes_eight hlen, ← readLanes_eight (h.1 ▸ hlen), readLanes_congr (memRead_congr h)]
    have hpayload : p = q := by
      cases p
      cases q
      exact congr (congrArg Payload.mk h.1) hlanes
    rw [hpayload]
  · rw [registryDecode_bad_length hlen, registryDecode_bad_length (h.1 ▸ hlen), h.1]

/-- Settles O25: a decoder reads only below its minimum length, and the registry only what eight bytes hold. -/
theorem lanesAboveLengthAreNotRead : Obligations.LanesAboveLengthAreNotRead := by
  intro p q s h
  refine ⟨fun m f => exec_ofMessage_congr (runDecoder_congr_of_agree h m) h.1 f s, fun id => ?_⟩
  have hresult := registryDecode_congr_of_agree h id
  calc exec (.unmapped id p) s
      = .next (s.drive (.registry (registryDecode id p) (isKnownIdentifier id))) := evalRegistry_eq id p s
    _ = .next (s.drive (.registry (registryDecode id q) (isKnownIdentifier id))) := by rw [hresult]
    _ = exec (.unmapped id q) s := (evalRegistry_eq id q s).symm

/-! ### The functional view over lists of bytes (R33, R36) -/

theorem laneAt_payloadOfBytes (bytes : List Byte) {i : Nat} (h : i < 8) :
    laneAt (payloadOfBytes bytes).lanes i = some (bytes.getD i 0) := by
  interval_cases i <;> rfl

/-- Byte `i` of the list is `b[i]` (R33, R38). -/
theorem memRead_payloadOfBytes (bytes : List Byte) {i : Nat} (h : i < 8) :
    memRead (payloadOfBytes bytes) i = bytes[i]? := by
  obtain hi | hi := Nat.lt_or_ge i bytes.length
  · rw [memRead_of_lt (p := payloadOfBytes bytes) hi, laneAt_payloadOfBytes bytes h, List.getElem?_eq_getElem hi,
      List.getD_eq_getElem bytes 0 hi]
  · rw [memRead_of_ge (p := payloadOfBytes bytes) hi, List.getElem?_eq_none hi]

/-- A longer list changes nothing of a decoder's result (R81). -/
theorem messageBytes_take {m : Message} {bytes : List Byte} (h : m.minLen ≤ bytes.length) :
    messageBytes m bytes = messageBytes m (bytes.take m.minLen) := by
  have htake : m.minLen ≤ (bytes.take m.minLen).length := (List.length_take_of_le h).ge
  refine runDecoder_congr_of_reads (p := payloadOfBytes bytes) (q := payloadOfBytes (bytes.take m.minLen)) h htake
    fun i hi => ?_
  have hlane : i < 8 := hi.trans_le (minLen_le_eight m)
  rw [memRead_payloadOfBytes _ hlane, memRead_payloadOfBytes _ hlane, List.getElem?_take_of_lt hi]

/-- Settles O42: the list's bytes are the payload's reads; the two functional results are those of the registry and of
the decoder on that payload. -/
theorem functionalViewReadsTheList : Obligations.FunctionalViewReadsTheList := by
  refine ⟨fun bytes => ⟨rfl, fun i hi => memRead_payloadOfBytes bytes hi⟩, fun bytes id => ⟨fun hlen => ?_,
    fun hlen => ?_, fun s => ?_⟩, fun m n bytes hmem => ?_⟩
  · exact registryDecode_bad_length (p := payloadOfBytes bytes) hlen
  · refine ⟨_, registryDecode_length_eight (p := payloadOfBytes bytes) hlen, selectRecord_eight_ne_empty id hlen,
      fun m hm => ?_⟩
    obtain ⟨r, hr⟩ := runDecoder_isSome_eight m (p := payloadOfBytes bytes) hlen
    rw [← identifier_of_messageOf hm, selectRecord_of_runDecoder hr, messageBytes, hr]
  · rw [← isKnownIdentifier_eq_decide]
    exact drives_decodeFrame id (payloadOfBytes bytes) s
  · obtain rfl := eq_minLen_of_mem_minLengths hmem
    exact ⟨runDecoder_eq_none_iff m _, fun _ => tag_of_runDecoder, messageBytes_take,
      drives_standalone m (payloadOfBytes bytes)⟩

end Sys2Proof.Machine
end

section
/-!
PROOFS. Steps and runs (spec/10_state.md R20 to R37, spec/70_reset_and_hazards.md R124, R127, spec/60_exceptions.md
R119). `exec_result` says once that an instruction drives one legal output, fixed by the instruction alone; the
statements on frames, the invariant and runs follow from it and from what a step evaluates.
-/

namespace Sys2Proof.Machine

open Sys2Proof.Claims

/-! ### The records a decoder gives are legal (R23, R24, R27, R29) -/

theorem rideModeOf_eq_rawHex {k x k' x' : Byte} (h : rideModeOf k x = .rawHex k' x') :
    k' ∉ ([0xAD, 0x2D, 0x6D, 0xED, 0x89, 0xC9] : List Byte) := by
  by_cases hmem : k ∈ ([0xAD, 0x2D, 0x6D, 0xED, 0x89, 0xC9] : List Byte)
  · simp only [List.mem_cons, List.not_mem_nil, or_false] at hmem
    obtain rfl | rfl | rfl | rfl | rfl | rfl := hmem <;> cases h
  · rw [rideModeOf_of_not_mem x hmem, RideMode.rawHex.injEq] at h
    exact h.1 ▸ hmem

theorem signed12_range (v : U12) : -2048 ≤ signed12 v ∧ signed12 v ≤ 2047 := by
  have hlow := v.le_toInt
  have hhigh := v.toInt_lt
  rw [signed12_eq_toInt]
  omega

theorem bigEndianS16_range (hi lo : Byte) : -32768 ≤ bigEndianS16 hi lo ∧ bigEndianS16 hi lo ≤ 32767 := by
  have hlow := (bigEndianU16 hi lo).le_toInt
  have hhigh := (bigEndianU16 hi lo).toInt_lt
  rw [bigEndianS16_eq_toInt]
  omega

theorem fuelPercent_le (raw : Byte) : fuelPercent raw ≤ 100 := by
  rw [fuelPercent_eq]
  exact fuelQuotient_le raw

theorem wheelBody_legal (b : Lanes) : (Record.wheel (wheelBody b)).Legal := by
  obtain ⟨htiltLow, htiltHigh⟩ := signed12_range (patternByteHiNibble b.p5 b.p6)
  obtain ⟨hleanLow, hleanHigh⟩ := signed12_range (patternLoNibbleByte b.p6 b.p7)
  exact ⟨htiltLow, htiltHigh, hleanLow, hleanHigh⟩

/-- A decoder's record is legal where its body's value is on every payload. -/
theorem legal_of_decoderTemplate {α : Type} {m : Message} {body : Lanes → α} {wrap : α → Record} {p : Payload}
    {r : Record} (h : (decoderTemplate m body p).map wrap = some r) (hbody : ∀ b, (wrap (body b)).Legal) : r.Legal := by
  obtain ⟨a, ha, rfl⟩ := Option.map_eq_some_iff.mp h
  obtain rfl := Option.some.inj (Option.ite_none_left_eq_some.mp ha).2
  exact hbody p.lanes

/-- The ranges of a decoder's record (R20 to R30). -/
theorem runDecoder_legal {m : Message} {p : Payload} {r : Record} (h : runDecoder m p = some r) : r.Legal := by
  cases m with
  | throttle => exact legal_of_decoderTemplate h fun _ _ _ => rideModeOf_eq_rawHex
  | wheel => exact legal_of_decoderTemplate h wheelBody_legal
  | sensors => exact legal_of_decoderTemplate h fun b => bigEndianS16_range b.p6 b.p7
  | fuel => exact legal_of_decoderTemplate h fun b => fuelPercent_le b.p0
  | _ => exact legal_of_decoderTemplate h fun _ => trivial

theorem runDecoder_ne_some_unmapped (m : Message) (p : Payload) (raw : Lanes) :
    runDecoder m p ≠ some (.unmapped raw) := fun h => by
  cases m <;> obtain ⟨_, -, hrecord⟩ := Option.map_eq_some_iff.mp h <;> cases hrecord

/-! ### The outputs of the evaluations are legal -/

theorem standaloneOutput_legal (m : Message) (p : Payload) : (Output.standalone (runDecoder m p)).Legal := by
  cases h : runDecoder m p with
  | none => trivial
  | some r =>
    refine ⟨runDecoder_legal h, ?_, ?_⟩
    · rintro rfl
      exact runDecoder_ne_some_empty m p h
    · rintro raw rfl
      exact runDecoder_ne_some_unmapped m p raw h

/-- `KNOWN` agrees with the variant, and `Empty` never stands on the registry's ports (R99 to R101, R114). -/
theorem registryOutput_legal (id : Id) (p : Payload) :
    (Output.registry (registryDecode id p) (isKnownIdentifier id)).Legal := by
  by_cases hlen : p.len = 8
  · rw [registryDecode_length_eight hlen]
    have hne := selectRecord_eight_ne_empty id hlen
    obtain ⟨m, rfl⟩ | h := identifier_cases id
    · obtain ⟨r, hr⟩ := runDecoder_isSome_eight m hlen
      rw [selectRecord_of_runDecoder hr] at hne ⊢
      have hvariant : ¬ ∃ raw, r = .unmapped raw := by
        rintro ⟨raw, rfl⟩
        exact runDecoder_ne_some_unmapped m p raw hr
      exact ⟨runDecoder_legal hr, hne, iff_of_false (by simp [isKnownIdentifier_identifier]) hvariant⟩
    · have hknown : isKnownIdentifier id = false := by rw [isKnownIdentifier_eq_isSome, h, Option.isSome_none]
      have hselect := selectRecord_of_messageOf_none h p
      rw [hselect] at hne ⊢
      exact ⟨trivial, hne, iff_of_true hknown ⟨_, rfl⟩⟩
  · rw [registryDecode_bad_length hlen]
    exact hlen

/-- An instruction drives its result, a legal output that depends on no state (R49). -/
theorem exec_result (i : Instr) : ∃ o, resultOf i = some o ∧ o.Legal ∧ ∀ s, exec i s = .next (s.drive o) := by
  suffices h : ∃ o : Output, o.Legal ∧ ∀ s, exec i s = .next (s.drive o) by
    obtain ⟨o, hlegal, hexec⟩ := h
    exact ⟨o, by simp only [resultOf, hexec, State.drive_output], hlegal, hexec⟩
  cases i using instr_by_row with
  | message m f p =>
    cases f with
    | registry => exact ⟨_, registryOutput_legal m.identifier p, drives_registry m p⟩
    | standalone => exact ⟨_, standaloneOutput_legal m p, drives_standalone m p⟩
  | unmapped id p => exact ⟨_, registryOutput_legal id p, evalRegistry_eq id p⟩
  | isknown id => exact ⟨.isKnown _, trivial, fun _ => rfl⟩
  | nameof id => exact ⟨.name _, trivial, fun _ => rfl⟩
  | lonib x => exact ⟨.nibble _, trivial, drives_lonib x⟩
  | hinib x => exact ⟨.nibble _, trivial, drives_hinib x⟩
  | beu16 hi lo => exact ⟨.unsigned16 _, trivial, drives_beu16 hi lo⟩
  | bes16 hi lo => exact ⟨.signed16 _, bigEndianS16_range hi lo, drives_bes16 hi lo⟩
  | s12 v => exact ⟨.signed12 _, signed12_range v, drives_s12 v⟩

/-- Evaluated on its own next state, an instruction answers that state again (R47). -/
theorem exec_idempotent {i : Instr} {s t : State} (h : exec i s = .next t) : exec i t = .next t := by
  obtain ⟨o, -, -, hexec⟩ := exec_result i
  obtain rfl := Host.Outcome.next.inj ((hexec s).symm.trans h)
  exact hexec (s.drive o)

/-! ### What a step evaluates -/

theorem step_of_nextInput {s t : State} {l : Line} {i : Instr} (h : s.nextInput = some (l, t))
    (hdecode : decode l = .ok i) : step s = exec i t := by
  simp only [step, h, hdecode]

theorem step_of_pending {s : State} {l : Line} {ls : List Line} {i : Instr} (h : s.pending = l :: ls)
    (hdecode : decode l = .ok i) : step s = exec i { s with pending := ls, presented := some l } :=
  step_of_nextInput (State.nextInput_cons h) hdecode

theorem step_of_held {s : State} {l : Line} {i : Instr} (h : s.pending = []) (hl : s.presented = some l)
    (hdecode : decode l = .ok i) : step s = exec i s :=
  step_of_nextInput (State.nextInput_held h hl) hdecode

theorem step_of_too_wide {s : State} {l : Line} {ls : List Line} (h : s.pending = l :: ls)
    (hwide : 2 ^ l.block.width ≤ l.word.toNat) :
    step s = .refused (.noPortForm (.strayBits l.block l.block.width)) := by
  simp only [step, State.nextInput_cons h, decode_of_too_wide hwide]

/-- A step that answers a next state holds a line that decodes, and that state is what its instruction answers. -/
theorem step_next_held {s t : State} (h : step s = .next t) :
    ∃ l i o, t.presented = some l ∧ decode l = .ok i ∧ t.output = some o ∧ o.Legal ∧ exec i t = .next t := by
  obtain ⟨l, u, i, -, hinput, hdecode, hexec, -⟩ := step_next h
  obtain ⟨hheld, -⟩ := State.nextInput_spec hinput
  obtain ⟨o, -, hlegal, hdrives⟩ := exec_result i
  obtain rfl := Host.Outcome.next.inj ((hdrives u).symm.trans hexec)
  exact ⟨l, i, o, hheld, hdecode, rfl, hlegal, exec_idempotent hexec⟩

/-- The step on a pending line answers the line's result, held with the line. -/
theorem step_pending_result {s : State} {l : Line} {ls : List Line} {i : Instr} (h : s.pending = l :: ls)
    (hdecode : decode l = .ok i) :
    step s = .next { pending := ls, presented := some l, output := resultOf i } := by
  obtain ⟨o, hresult, -, hexec⟩ := exec_result i
  rw [step_of_pending h hdecode, hexec, hresult]
  rfl

/-- A step on a pending line that answers a next state answers that one. -/
theorem step_pending_next {s t : State} {l : Line} {ls : List Line} (h : s.pending = l :: ls)
    (hstep : step s = .next t) :
    ∃ i, decode l = .ok i ∧ t = { pending := ls, presented := some l, output := resultOf i } := by
  obtain hfits | hwide := Nat.lt_or_ge l.word.toNat (2 ^ l.block.width)
  · have hdecode := decode_of_fits hfits
    exact ⟨_, hdecode, Host.Outcome.next.inj (hstep.symm.trans (step_pending_result h hdecode))⟩
  · rw [step_of_too_wide h hwide] at hstep
    cases hstep

/-- What a step on a pending line answers does not depend on what the state held or drove before (R49). -/
theorem step_congr_of_pending {s t : State} {l : Line} {ls : List Line} (hs : s.pending = l :: ls)
    (ht : t.pending = l :: ls) : step s = step t := by
  obtain hfits | hwide := Nat.lt_or_ge l.word.toNat (2 ^ l.block.width)
  · rw [step_pending_result hs (decode_of_fits hfits), step_pending_result ht (decode_of_fits hfits)]
  · rw [step_of_too_wide hs hwide, step_of_too_wide ht hwide]

/-! ### The statements on one step -/

/-- Settles O6: the three cases of `nextInput`. -/
theorem stepRunsTheDecodedInstruction : Obligations.StepRunsTheDecodedInstruction :=
  ⟨fun _ _ _ _ => step_of_pending, fun _ _ _ => step_of_held, fun s hpending hpresented => by
    simp only [step, State.nextInput_none hpending hpresented]⟩

/-- Settles O5: a word that fits decodes and its instruction answers a next state; a wider one is refused by name. -/
theorem onlyTooWideWordsAreRefused : Obligations.OnlyTooWideWordsAreRefused := by
  intro l s ls h
  refine ⟨⟨fun ⟨r, hr⟩ => ?_, fun hwide => ⟨_, step_of_too_wide h hwide⟩⟩, step_of_too_wide h⟩
  by_contra hfits
  rw [step_pending_result h (decode_of_fits (Nat.not_le.mp hfits))] at hr
  cases hr

/-- Settles O44: an instruction drives one legal output and touches nothing else. -/
theorem instructionsChangeOnlyTheOutput : Obligations.InstructionsChangeOnlyTheOutput := by
  intro i s t h
  obtain ⟨o, -, hlegal, hexec⟩ := exec_result i
  obtain rfl := Host.Outcome.next.inj ((hexec s).symm.trans h)
  exact ⟨rfl, rfl, o, rfl, hlegal⟩

/-- Settles O46: at reset nothing is held and nothing is driven. -/
theorem resetMeetsInv : Obligations.ResetMeetsInv :=
  ⟨fun _ => rfl, nofun, nofun⟩

/-- Settles O47: after a step the held line decodes, its instruction drove the output, and that output is legal. -/
theorem stepKeepsInv : Obligations.StepKeepsInv := by
  intro s t _ h
  obtain ⟨l, i, o, hheld, hdecode, hout, hlegal, hsettled⟩ := step_next_held h
  refine ⟨fun hnone => ?_, fun l' hl' => ?_, fun o' ho' => ?_⟩
  · rw [hheld] at hnone
    cases hnone
  · obtain rfl := Option.some.inj (hheld.symm.trans hl')
    exact ⟨i, hdecode, hsettled⟩
  · obtain rfl := Option.some.inj (hout.symm.trans ho')
    exact hlegal

/-- Settles O48: driving the result again changes nothing, and with nothing pending the held line is evaluated. -/
theorem evaluationIsIdempotent : Obligations.EvaluationIsIdempotent := by
  refine ⟨fun i s t h => ?_, fun s t h hpending => ?_⟩
  · obtain ⟨hpending, hpresented, -⟩ := instructionsChangeOnlyTheOutput i s t h
    exact ⟨exec_idempotent h, hpresented, hpending⟩
  · obtain ⟨l, i, o, hheld, hdecode, -, -, hsettled⟩ := step_next_held h
    rw [step_of_held hpending hheld hdecode, hsettled]

/-! ### The statements on several steps -/

/-- Settles O45: the first line of the list decides, not the state it is loaded into. -/
theorem firstEvaluationIsLikeAnyOther : Obligations.FirstEvaluationIsLikeAnyOther := by
  refine ⟨⟨rfl, rfl⟩, fun s ls hne => ?_⟩
  obtain ⟨l, rest, rfl⟩ := List.exists_cons_of_ne_nil hne
  exact step_congr_of_pending rfl rfl

/-- Settles O49: the line decodes, as the first state's step shows, and both steps answer its result. -/
theorem outputDependsOnItsInputsOnly : Obligations.OutputDependsOnItsInputsOnly := by
  intro s₁ s₂ t₁ l ls₁ ls₂ h₁ h₂ hstep
  obtain ⟨i, hdecode, rfl⟩ := step_pending_next h₁ hstep
  exact ⟨_, step_pending_result h₂ hdecode, rfl, rfl, rfl⟩

/-- A run whose first step answers a next state goes on from it. -/
theorem core_run_succ {s t : State} (k : Nat) (h : step s = .next t) : core.run (k + 1) s = core.run k t := by
  simp only [Host.Core.run, show core.step s = .next t from h]

/-- Settles O50, by induction on the lines before the last: each of them answers some next state, whose pending list is
one shorter. -/
theorem programEndsWithTheLastLinesResult : Obligations.ProgramEndsWithTheLastLinesResult := by
  intro s ls l i hls hl
  induction ls generalizing s with
  | nil => exact core_run_succ 0 (step_pending_result rfl hl)
  | cons x xs ih =>
    obtain ⟨⟨j, hj⟩, hxs⟩ := List.forall_mem_cons.mp hls
    have hstep := step_pending_result (s := s.load (x :: xs ++ [l])) rfl hj
    exact (core_run_succ (xs.length + 1) hstep).trans (ih ⟨xs ++ [l], some x, resultOf j⟩ hxs)

/-- Settles O51: the failing line is taken from the list, and the next step sees the rest of it. -/
theorem failureIsNotSticky : Obligations.FailureIsNotSticky := by
  intro s t bad l ls e k hpending hstep _
  obtain ⟨i, -, rfl⟩ := step_pending_next hpending hstep
  exact step_congr_of_pending rfl rfl

end Sys2Proof.Machine
end

section
/-!
PROOFS. Texts and ports (spec/43_output_views.md, spec/10_state.md R20 to R35, spec/20_memory.md R42,
spec/41_decoders.md R90): hexadecimal digits as numbers, the labels and views, and the port values as a faithful image of a record.
-/

namespace Sys2Proof.Machine

open Sys2Proof.Claims

/-! ### Hexadecimal digits denote their value (R108) -/

/-- The number a list of hexadecimal digits denotes after the digits that made `a`, most significant first. -/
def digitsValue (a : Nat) (ds : List Nat) : Nat := ds.foldl (fun a d => 16 * a + d) a

theorem digitsValue_cons (a d : Nat) (ds : List Nat) : digitsValue a (d :: ds) = digitsValue (16 * a + d) ds := rfl

/-- A leading zero denotes nothing. -/
theorem digitsValue_zero_cons (ds : List Nat) : digitsValue 0 (0 :: ds) = digitsValue 0 ds := rfl

theorem digitsValue_nibblesOf (k v a : Nat) : digitsValue a (nibblesOf k v) = a * 16 ^ k + v % 16 ^ k := by
  induction k generalizing a with
  | zero => simp [nibblesOf, digitsValue, Nat.mod_one]
  | succ k ih =>
    rw [nibblesOf, digitsValue_cons, ih, Nat.pow_succ, Nat.mod_mul]
    ring

theorem digitsValue_trimZeros (ds : List Nat) : digitsValue 0 (trimZeros ds) = digitsValue 0 ds := by
  induction ds using trimZeros.induct with
  | case1 d ds ih => rw [trimZeros, ih, digitsValue_zero_cons]
  | case2 ds h => rw [trimZeros.eq_2 ds h]

theorem digitsValue_padZeros (m : Nat) (ds : List Nat) : digitsValue 0 (padZeros m ds) = digitsValue 0 ds := by
  rw [padZeros]
  induction m - ds.length with
  | zero => rfl
  | succ n ih => rw [List.replicate_succ, List.cons_append, digitsValue_zero_cons, ih]

theorem lt_sixteen_of_mem_nibblesOf {k v d : Nat} (h : d ∈ nibblesOf k v) : d < 16 := by
  induction k with
  | zero => cases h
  | succ k ih =>
    obtain rfl | htail := List.mem_cons.mp h
    · exact Nat.mod_lt _ (by decide)
    · exact ih htail

theorem mem_of_mem_trimZeros {ds : List Nat} {d : Nat} (h : d ∈ trimZeros ds) : d ∈ ds := by
  induction ds using trimZeros.induct with
  | case1 d' ds ih => exact List.mem_cons_of_mem _ (ih h)
  | case2 ds hds => rwa [trimZeros.eq_2 ds hds] at h

theorem lt_sixteen_of_mem_hexDigits {v m d : Nat} (h : d ∈ hexDigits v m) : d < 16 := by
  obtain hpad | hdigit := List.mem_append.mp h
  · obtain rfl := List.eq_of_mem_replicate hpad
    decide
  · exact lt_sixteen_of_mem_nibblesOf (mem_of_mem_trimZeros hdigit)

/-- After trimming, more than one digit means that the first is not 0. -/
theorem head_trimZeros_ne_zero {ds : List Nat} (h : 1 < (trimZeros ds).length) : (trimZeros ds).head? ≠ some 0 := by
  induction ds using trimZeros.induct with
  | case1 d ds ih => exact ih h
  | case2 ds hds =>
    rw [trimZeros.eq_2 ds hds] at h ⊢
    intro hhead
    obtain ⟨rest, rfl⟩ := List.head?_eq_some_iff.mp hhead
    cases rest with
    | nil => exact absurd h (by decide)
    | cons d rest => exact hds d rest rfl

theorem length_padZeros (m : Nat) (ds : List Nat) : (padZeros m ds).length = max m ds.length := by
  rw [padZeros, List.length_append, List.length_replicate]
  omega

/-- More digits than the padding asks for are the trimmed ones. -/
theorem head_hexDigits_ne_zero {v m : Nat} (hm : 1 ≤ m) (h : m < (hexDigits v m).length) :
    (hexDigits v m).head? ≠ some 0 := by
  rw [hexDigits] at h ⊢
  have hlong : m < (trimZeros (nibblesOf 8 v)).length := by
    rw [length_padZeros] at h
    omega
  rw [padZeros_of_le hlong.le]
  exact head_trimZeros_ne_zero (hm.trans_lt hlong)

theorem hexUpper_toList (v m : Nat) : (hexUpper v m).toList = (hexDigits v m).map hexCharUpper :=
  String.toList_ofList

/-- Settles O33: trimming and padding change neither the value denoted nor the range of the digits. -/
theorem hexDigitsAreTheValue : Obligations.HexDigitsAreTheValue := by
  intro v m hv hm _
  refine ⟨?_, ?_, fun d => lt_sixteen_of_mem_hexDigits, ?_, ?_, head_hexDigits_ne_zero hm⟩
  · rw [hexUpper_toList]
    exact List.map_congr_left fun d hd => hexCharUpper_eq_upperDigit (lt_sixteen_of_mem_hexDigits hd)
  · rw [hexLower_toList]
    exact List.map_congr_left fun d hd => hexCharLower_eq_lowerDigit (lt_sixteen_of_mem_hexDigits hd)
  · calc digitsValue 0 (hexDigits v m)
        = digitsValue 0 (nibblesOf 8 v) := by rw [hexDigits, digitsValue_padZeros, digitsValue_trimZeros]
      _ = v := by rw [digitsValue_nibblesOf, Nat.zero_mul, Nat.zero_add, Nat.mod_eq_of_lt (show v < 16 ^ 8 from hv)]
  · rw [hexDigits, length_padZeros]
    exact Nat.le_max_left _ _

/-! ### Labels and views (R106, R109 to R111) -/

theorem upperDigit_inj : ∀ a < 16, ∀ b < 16, upperDigit a = upperDigit b → a = b := by
  decide

theorem upperPair_injective : Function.Injective upperPair := fun a b h => by
  obtain ⟨hhigh, hrest⟩ := List.cons.inj h
  have hquotient := upperDigit_inj _ (byte_div_sixteen_lt a) _ (byte_div_sixteen_lt b) hhigh
  have hremainder := upperDigit_inj _ (Nat.mod_lt _ (by decide)) _ (Nat.mod_lt _ (by decide)) (List.cons.inj hrest).1
  apply BitVec.eq_of_toNat_eq
  omega

/-- A text that begins with a byte's pair determines the byte and the rest. -/
theorem upperPair_append_eq_iff (a b : Byte) (xs ys : List Char) :
    upperPair a ++ xs = upperPair b ++ ys ↔ a = b ∧ xs = ys := by
  refine ⟨fun h => ?_, fun ⟨hbyte, hrest⟩ => by rw [hbyte, hrest]⟩
  obtain ⟨hpair, hrest⟩ := List.append_inj h rfl
  exact ⟨upperPair_injective hpair, hrest⟩

/-- Settles O36: the eight pairs stand at fixed places, and each determines its byte. -/
theorem unmappedTextIsInjective : Obligations.UnmappedTextIsInjective := fun b c h => by
  have htext := congrArg String.toList h
  rw [(unmappedTextFormat b).1, (unmappedTextFormat c).1] at htext
  simp only [List.append_assoc, List.cons_append, upperPair_append_eq_iff, List.cons.injEq, true_and] at htext
  obtain ⟨h0, h1, h2, h3, h4, h5, h6, hlast⟩ := htext
  have h7 := upperPair_injective hlast
  cases b
  cases c
  exact (Lanes.mk.injEq ..).mpr ⟨h0, h1, h2, h3, h4, h5, h6, h7⟩

theorem idHexMinDigits_range : 1 ≤ Config.idHexMinDigits ∧ Config.idHexMinDigits ≤ 3 :=
  ⟨Nat.le_add_left _ _, Config.idHexExtraDigits.isLt⟩

theorem nameOf_of_known {id : Id} (h : id ∈ tenIdentifiers) : nameOf id = channelName id := by
  rw [nameOf, nameOfWith, isKnownIdentifier_eq_decide, if_pos (decide_eq_true h)]

theorem nameOf_of_unknown {id : Id} (h : id ∉ tenIdentifiers) :
    nameOf id = "Unknown (0x" ++ hexUpper id.toNat Config.idHexMinDigits ++ ")" := by
  rw [nameOf, nameOfWith, isKnownIdentifier_eq_decide, if_neg (by simpa using h)]

theorem channelName_of_open {id : Id} (hmode : id ≠ 0x12A) (hbrakes : id ≠ 0x290) :
    channelName id = Config.openChannelName id := by
  rw [channelName, if_neg hmode, if_neg hbrakes]

/-- Settles O32: the label of a known identifier is its channel name, the two assigned ones computed. -/
theorem nameofGivesTheLabel : Obligations.NameofGivesTheLabel := by
  refine ⟨idHexMinDigits_range, fun id s => ⟨nameOf id, rfl, ?_, ?_, fun hknown hmode hbrakes => ?_,
    nameOf_of_unknown⟩⟩
  · rintro rfl
    rfl
  · rintro rfl
    rfl
  · rw [nameOf_of_known hknown, channelName_of_open hmode hbrakes]

/-- Settles O37: each variant's list is the view's own arm. -/
theorem viewHasTheKeysOfTheVariant : Obligations.ViewHasTheKeysOfTheVariant :=
  ⟨fun _ => rfl, fun _ => rfl, fun _ => rfl, fun _ => rfl, fun _ => rfl, fun _ => rfl, fun _ => rfl, fun _ => rfl,
    fun _ => rfl, fun _ => rfl, fun _ => rfl, rfl⟩

/-! ### Two values of the payload (R42, R90) -/

/-- Bits 0 to 7 of an appended byte are its own. -/
theorem getLsbD_append_byte_low {n : Nat} (x : BitVec n) (y : Byte) {j : Nat} (hj : j < 8) :
    (x ++ y).getLsbD j = y.getLsbD j := by
  rw [BitVec.getLsbD_append, if_pos hj]

/-- The bits above an appended byte are those of the word it was appended to. -/
theorem getLsbD_append_byte_high {n : Nat} (x : BitVec n) (y : Byte) (j : Nat) :
    (x ++ y).getLsbD (8 + j) = x.getLsbD j := by
  rw [BitVec.getLsbD_append, if_neg (by omega), Nat.add_sub_cancel_left]

/-- Settles O12: the word is the bytes appended, `b[0]` last, so each of the `k` bytes below `b[k]` takes eight bits
off. -/
theorem lightsWordIsLittleEndian : Obligations.LightsWordIsLittleEndian := by
  intro b k j hk hj
  rw [littleEndianU32]
  interval_cases k
  · rw [Nat.mul_zero, Nat.zero_add, getLsbD_append_byte_low _ _ hj]
    rfl
  · rw [Nat.mul_one, getLsbD_append_byte_high, getLsbD_append_byte_low _ _ hj]
    rfl
  · rw [show 8 * 2 + j = 8 + (8 + j) by omega, getLsbD_append_byte_high, getLsbD_append_byte_high,
      getLsbD_append_byte_low _ _ hj]
    rfl
  · rw [show 8 * 3 + j = 8 + (8 + (8 + j)) by omega, getLsbD_append_byte_high, getLsbD_append_byte_high,
      getLsbD_append_byte_high]
    rfl

theorem coolantTempC_sensorsBody (b : Lanes) :
    10 * coolantTempC (sensorsBody b) = ((b.p6 ++ b.p7 : U16).toInt : Rat) := by
  rw [coolantTempC, sensorsBody_eq]
  ring

theorem coolantTempC_range (b : Lanes) :
    -32768 / 10 ≤ coolantTempC (sensorsBody b) ∧ coolantTempC (sensorsBody b) ≤ 32767 / 10 := by
  obtain ⟨hlow, hhigh⟩ := bigEndianS16_range b.p6 b.p7
  have hlow' : (-32768 : Rat) ≤ (sensorsBody b).coolantRaw := by exact_mod_cast hlow
  have hhigh' : ((sensorsBody b).coolantRaw : Rat) ≤ 32767 := by exact_mod_cast hhigh
  rw [coolantTempC]
  constructor <;> linarith

/-- Settles O39: from eight bytes on the record is the body's, whose temperature is the signed value over 10. -/
theorem coolantIsTenthsOfADegree : Obligations.CoolantIsTenthsOfADegree := by
  intro p s hlen
  have hrun : runDecoder .sensors p = some (.sensors (sensorsBody p.lanes)) :=
    congrArg (Option.map Record.sensors) (decoderTemplate_some (m := .sensors) hlen)
  exact ⟨sensorsBody p.lanes, hrun ▸ drives_standalone .sensors p s, coolantTempC_sensorsBody p.lanes,
    coolantTempC_range p.lanes⟩

/-! ### The port values carry the record (R34, R35) -/

/-- A flag is read back from its bus. -/
theorem flag_of_bus {v : U1} {b : Bool} (h : v = BitVec.ofBool b) : (v == 1) = b := by
  subst h
  cases b <;> rfl

/-- A signed field within the range of its bus is read back from it. -/
theorem toInt_of_bus {n : Nat} {v : BitVec n} {x : Int} (h : v = BitVec.ofInt n x) (hn : 0 < n)
    (hlow : -2 ^ (n - 1) ≤ x) (hhigh : x ≤ 2 ^ (n - 1) - 1) : v.toInt = x := by
  rw [h, BitVec.toInt_ofInt_eq_self hn hlow (Int.lt_of_le_sub_one hhigh)]

theorem percent_of_bus {v : BitVec 7} {n : Nat} (h : v = BitVec.ofNat 7 n) (hn : n ≤ 100) : v.toNat = n := by
  rw [h, BitVec.toNat_ofNat]
  omega

/-- The eight bytes are read back from the bus they stand on. -/
theorem lanesOfBus_busOfLanes (b : Lanes) : lanesOfBus (busOfLanes b) = b := by
  simp (disch := decide) only [lanesOfBus, busOfLanes, BitVec.extractLsb'_append_eq_of_le, Nat.reduceSub,
    BitVec.extractLsb'_append_eq_right, BitVec.extractLsb'_eq_self]

theorem rideMode_ofPorts {m : RideMode} {code : BitVec 3} {b1 b3 : Byte} (hcode : m.code = code)
    (h1 : ∀ v, m.rmB1 = some v → b1 = v) (h3 : ∀ v, m.rmB3 = some v → b3 = v) :
    RideMode.ofPorts code b1 b3 = some m := by
  subst hcode
  cases m with
  | rawHex k x =>
    obtain rfl := h1 k rfl
    obtain rfl := h3 x rfl
    rfl
  | _ => rfl

/-- Settles O40: variant by variant, the code selects the variant's arm of the reader, and each bus gives back its
field. -/
theorem portsCarryTheRecord : Obligations.PortsCarryTheRecord := by
  intro r bus hlegal hbus
  cases r with
  | engine f =>
    cases f
    refine congrArg (some ∘ Record.engine) ((EngineFrame.mk.injEq ..).mpr ?_)
    exact ⟨hbus .engineRpm _ rfl, hbus .engineThrottle _ rfl, hbus .engineKillSwitch _ rfl,
      hbus .engineThrottleMap _ rfl⟩
  | gear f =>
    cases f
    refine congrArg (some ∘ Record.gear) ((GearFrame.mk.injEq ..).mpr ?_)
    exact ⟨hbus .gearGear _ rfl, flag_of_bus (hbus .gearClutchIn _ rfl)⟩
  | throttle f =>
    cases f
    have hmode := rideMode_ofPorts (hbus .throttleRm _ rfl).symm (hbus .throttleRmB1) (hbus .throttleRmB3)
    refine (congrArg (Option.map _) hmode).trans
      (congrArg (some ∘ Record.throttle) ((ThrottleStateFrame.mk.injEq ..).mpr ?_))
    exact ⟨flag_of_bus (hbus .throttleOpen _ rfl), hbus .throttleRequestedMap _ rfl, rfl⟩
  | wheel f =>
    cases f
    obtain ⟨htiltLow, htiltHigh, hleanLow, hleanHigh⟩ := hlegal
    refine congrArg (some ∘ Record.wheel) ((WheelSpeedFrame.mk.injEq ..).mpr ?_)
    exact ⟨hbus .wheelFrontWheel _ rfl, hbus .wheelRearWheel _ rfl,
      toInt_of_bus (hbus .wheelTilt _ rfl) (by decide) htiltLow htiltHigh,
      toInt_of_bus (hbus .wheelLean _ rfl) (by decide) hleanLow hleanHigh⟩
  | brakes f =>
    cases f
    refine congrArg (some ∘ Record.brakes) ((BrakeFrame.mk.injEq ..).mpr ?_)
    exact ⟨hbus .brakesFrontBrake _ rfl, hbus .brakesRearBrake _ rfl⟩
  | traction f =>
    exact congrArg (some ∘ Record.traction ∘ TractionFrame.mk) (hbus .tractionButtonState _ rfl)
  | sensors f =>
    cases f
    obtain ⟨hlow, hhigh⟩ := hlegal
    refine congrArg (some ∘ Record.sensors) ((SensorFrame.mk.injEq ..).mpr ?_)
    exact ⟨hbus .sensorsRpm _ rfl, hbus .sensorsGear _ rfl, flag_of_bus (hbus .sensorsKickstandUp _ rfl),
      flag_of_bus (hbus .sensorsKickstandError _ rfl),
      toInt_of_bus (hbus .sensorsCoolantRaw _ rfl) (by decide) hlow hhigh⟩
  | killsw f =>
    exact congrArg (some ∘ Record.killsw ∘ KillSwitchState.mk) (flag_of_bus (hbus .killswRunning _ rfl))
  | fuel f =>
    exact congrArg (some ∘ Record.fuel ∘ FuelLevel.mk) (percent_of_bus (hbus .fuelPercent _ rfl) hlegal)
  | lights f =>
    cases f
    refine congrArg (some ∘ Record.lights) ((LightsFrame.mk.injEq ..).mpr ?_)
    exact ⟨flag_of_bus (hbus .lightsDrlActive _ rfl), flag_of_bus (hbus .lightsHighBeamActive _ rfl),
      flag_of_bus (hbus .lightsLowBeamActive _ rfl), flag_of_bus (hbus .lightsHighBeamBroken _ rfl),
      flag_of_bus (hbus .lightsLowBeamBroken _ rfl)⟩
  | unmapped b =>
    exact congrArg (some ∘ Record.unmapped)
      ((congrArg lanesOfBus (hbus .unmappedRaw _ rfl)).trans (lanesOfBus_busOfLanes b))
  | empty => rfl

theorem tag_le_eleven (r : Record) : r.tag.toNat ≤ 11 := by
  obtain rfl | hne := eq_or_ne r .empty
  · decide
  · exact (tag_le_ten hne).trans (by decide)

theorem rideMode_code_le_six (m : RideMode) : m.code.toNat ≤ 6 := by
  cases m with
  | rawHex k x => exact Nat.le_refl 6
  | _ => decide

/-- The reader's arms are the codes 0 to 11. -/
theorem recordOfPorts_of_tag_ge {t : BitVec 4} (h : 12 ≤ t.toNat) (bus : (b : Bus) → BitVec b.width) :
    recordOfPorts t bus = none := by
  unfold recordOfPorts
  split
  case h_13 => rfl
  all_goals omega

/-- Settles O41: the reader has no arm for the refused codes, and no record or ride mode carries one. -/
theorem portCodesWithoutRecordAreRefused : Obligations.PortCodesWithoutRecordAreRefused :=
  ⟨fun _ bus ht => recordOfPorts_of_tag_ge ht bus, fun _ _ => rfl, tag_le_eleven, rideMode_code_le_six⟩

end Sys2Proof.Machine
end

section
/-!
PROOFS. The binary64 number of the view and the fuel percentage in binary64 (spec/41_decoders.md R90, R93; PRESUMED, log
entry 8). A positive rational lies between two consecutive powers of two, so its scaled significand lies between `2^52`
and `2^53` and rounding it errs by half a unit at most; the pattern is sign, biased exponent and fraction appended.
-/

namespace Sys2Proof.Machine

open Sys2Proof.Claims

/-! ### Powers of two -/

theorem powTwo_eq_zpow (k : Int) : powTwo k = (2 : Rat) ^ k := by
  cases k with
  | ofNat n =>
    rw [powTwo, Int.ofNat_eq_natCast, zpow_natCast]
    push_cast
    rfl
  | negSucc n =>
    rw [powTwo, zpow_negSucc, one_div]
    push_cast
    rfl

theorem powTwo_pos (k : Int) : 0 < powTwo k := by
  rw [powTwo_eq_zpow]
  positivity

theorem powTwo_add (j k : Int) : powTwo (j + k) = powTwo j * powTwo k := by
  simp only [powTwo_eq_zpow]
  exact zpow_add₀ two_ne_zero j k

theorem powTwo_natCast (n : Nat) : powTwo n = 2 ^ n := by
  rw [powTwo_eq_zpow, zpow_natCast]

theorem powTwo_lt_iff {j k : Int} : powTwo j < powTwo k ↔ j < k := by
  simp only [powTwo_eq_zpow]
  exact zpow_lt_zpow_iff_right₀ one_lt_two

theorem powTwo_le_iff {j k : Int} : powTwo j ≤ powTwo k ↔ j ≤ k := by
  simp only [powTwo_eq_zpow]
  exact zpow_le_zpow_iff_right₀ one_lt_two

/-- A positive number lies from the power of its logarithm up to the next power. -/
theorem powTwo_log2_bracket {n : Nat} (h : n ≠ 0) : powTwo n.log2 ≤ n ∧ (n : Rat) < powTwo (n.log2 + 1) := by
  have hlow : ((2 ^ n.log2 : Nat) : Rat) ≤ n := Nat.cast_le.mpr (Nat.log2_self_le h)
  have hhigh : (n : Rat) < ((2 ^ (n.log2 + 1) : Nat) : Rat) := Nat.cast_lt.mpr Nat.lt_log2_self
  exact ⟨hlow, hhigh⟩

/-! ### Exponent and significand -/

/-- The difference of the logarithms is the exponent or one above it. -/
theorem log2_difference_bracket {q : Rat} (hq : 0 < q) :
    powTwo ((q.num.natAbs.log2 : Int) - q.den.log2 - 1) ≤ q ∧
      q < powTwo ((q.num.natAbs.log2 : Int) - q.den.log2 + 1) := by
  have hnum : 0 < q.num := Rat.num_pos.mpr hq
  have hden : (0 : Rat) < q.den := Nat.cast_pos.mpr q.den_pos
  have hvalue : (q.num.natAbs : Rat) = q * q.den := by
    rw [Nat.cast_natAbs, abs_of_pos hnum, Rat.mul_den_eq_num]
  obtain ⟨hnumLow, hnumHigh⟩ := powTwo_log2_bracket (Int.natAbs_ne_zero.mpr hnum.ne')
  obtain ⟨hdenLow, hdenHigh⟩ := powTwo_log2_bracket q.den_ne_zero
  generalize (q.num.natAbs.log2 : Int) = a at *
  generalize (q.den.log2 : Int) = b at *
  rw [hvalue] at hnumLow hnumHigh
  constructor
  · refine le_of_mul_le_mul_right ?_ hden
    calc powTwo (a - b - 1) * q.den
        ≤ powTwo (a - b - 1) * powTwo (b + 1) := by gcongr; exact (powTwo_pos _).le
      _ = powTwo a := by rw [← powTwo_add]; congr 1; ring
      _ ≤ q * q.den := hnumLow
  · refine lt_of_mul_lt_mul_right ?_ hden.le
    calc q * q.den
        < powTwo (a + 1) := hnumHigh
      _ = powTwo (a - b + 1) * powTwo b := by rw [← powTwo_add]; congr 1; ring
      _ ≤ powTwo (a - b + 1) * q.den := by gcongr; exact (powTwo_pos _).le

theorem binaryExponent_bracket {q : Rat} (hq : 0 < q) :
    powTwo (binaryExponent q) ≤ q ∧ q < powTwo (binaryExponent q + 1) := by
  obtain ⟨hlow, hhigh⟩ := log2_difference_bracket hq
  rw [binaryExponent]
  split
  next h => exact ⟨h, hhigh⟩
  next h => exact ⟨hlow, by rw [Int.sub_add_cancel]; exact not_le.mp h⟩

/-- The value scaled to units of the last place is from `2^52` up to `2^53`. -/
theorem scaled_bracket {q : Rat} (hq : 0 < q) :
    2 ^ 52 ≤ q * powTwo (52 - binaryExponent q) ∧ q * powTwo (52 - binaryExponent q) < 2 ^ 53 := by
  obtain ⟨hlow, hhigh⟩ := binaryExponent_bracket hq
  have hpos := powTwo_pos (52 - binaryExponent q)
  constructor
  · calc (2 : Rat) ^ 52
        = powTwo (binaryExponent q) * powTwo (52 - binaryExponent q) := by
          rw [← powTwo_add, add_sub_cancel]
          exact (powTwo_natCast 52).symm
      _ ≤ q * powTwo (52 - binaryExponent q) := by gcongr
  · calc q * powTwo (52 - binaryExponent q)
        < powTwo (binaryExponent q + 1) * powTwo (52 - binaryExponent q) := by gcongr
      _ = 2 ^ 53 := by
          rw [← powTwo_add, add_right_comm, add_sub_cancel]
          exact powTwo_natCast 53

/-- The floor and the next integer are each within a half of a value on their side of the middle, and both at it. -/
theorem roundTiesEven_error (x : Rat) : |(roundTiesEven x : Rat) - x| ≤ 1 / 2 := by
  have hlow := Rat.floor_le x
  have hhigh := Rat.lt_floor_add_one x
  push_cast at hhigh
  rw [abs_le, roundTiesEven]
  split_ifs <;> constructor <;> push_cast <;> linarith

theorem binarySignificand_range {q : Rat} (hq : 0 < q) :
    2 ^ 52 ≤ binarySignificand q ∧ binarySignificand q ≤ 2 ^ 53 := by
  obtain ⟨hlow, hhigh⟩ := scaled_bracket hq
  obtain ⟨hbelow, habove⟩ := abs_le.mp (roundTiesEven_error (q * powTwo (52 - binaryExponent q)))
  rw [← binarySignificand] at hbelow habove
  constructor
  · have h : ((2 ^ 52 - 1 : Int) : Rat) < binarySignificand q := by push_cast; linarith
    exact Int.le_of_sub_one_lt (Int.cast_lt.mp h)
  · have h : (binarySignificand q : Rat) < ((2 ^ 53 + 1 : Int) : Rat) := by push_cast; linarith
    exact Int.le_of_lt_add_one (Int.cast_lt.mp h)

/-! ### The rounded value -/

theorem nearestBinary64_of_pos {q : Rat} (hq : 0 < q) :
    nearestBinary64 q = binarySignificand q * powTwo (binaryExponent q - 52) := by
  simp only [nearestBinary64, if_neg hq.ne', if_neg hq.not_gt]

theorem nearestBinary64_neg {q : Rat} (hq : 0 < q) : nearestBinary64 (-q) = -nearestBinary64 q := by
  have hneg : -q < 0 := neg_neg_of_pos hq
  simp only [nearestBinary64, if_neg hneg.ne, if_pos hneg, if_neg hq.ne', if_neg hq.not_gt, neg_neg]

/-- Half a unit in the last place. -/
theorem nearestBinary64_error {q : Rat} (hq : 0 < q) :
    |nearestBinary64 q - q| ≤ powTwo (binaryExponent q - 53) := by
  have hpos := powTwo_pos (binaryExponent q - 52)
  have hunit : q = q * powTwo (52 - binaryExponent q) * powTwo (binaryExponent q - 52) := by
    rw [mul_assoc, ← powTwo_add, sub_add_sub_cancel, sub_self]
    exact (mul_one q).symm
  calc |nearestBinary64 q - q|
      = |(binarySignificand q - q * powTwo (52 - binaryExponent q)) * powTwo (binaryExponent q - 52)| := by
        rw [sub_mul, ← hunit, nearestBinary64_of_pos hq]
    _ = |binarySignificand q - q * powTwo (52 - binaryExponent q)| * powTwo (binaryExponent q - 52) := by
        rw [abs_mul, abs_of_pos hpos]
    _ ≤ 1 / 2 * powTwo (binaryExponent q - 52) := by
        gcongr
        exact roundTiesEven_error _
    _ = powTwo (binaryExponent q - 53) := by
        rw [show binaryExponent q - 53 = -1 + (binaryExponent q - 52) by ring, powTwo_add]
        rfl

/-! ### The pattern: sign, biased exponent, fraction -/

/-- The three fields of a binary64 pattern, sign highest. -/
def packBinary64 (sign : U1) (e : BitVec 11) (f : BitVec 52) : BitVec 64 := sign ++ (e ++ f)

theorem packBinary64_fraction (sign : U1) (e : BitVec 11) (f : BitVec 52) :
    (packBinary64 sign e f).extractLsb' 0 52 = f := by
  rw [packBinary64, BitVec.extractLsb'_append_eq_of_add_le (by decide), BitVec.extractLsb'_append_eq_right]

theorem packBinary64_exponent (sign : U1) (e : BitVec 11) (f : BitVec 52) :
    (packBinary64 sign e f).extractLsb' 52 11 = e := by
  rw [packBinary64, BitVec.extractLsb'_append_eq_of_add_le (by decide), BitVec.extractLsb'_append_eq_left]

theorem packBinary64_sign (sign : U1) (e : BitVec 11) (f : BitVec 52) :
    (packBinary64 sign e f).getLsbD 63 = sign.getLsbD 0 := by
  rw [packBinary64, BitVec.getLsbD_append, if_neg (by decide)]

/-- Setting the sign of a positive pattern sets bit 63 and no other. -/
theorem packBinary64_set_sign (e : BitVec 11) (f : BitVec 52) :
    packBinary64 1 e f = packBinary64 0 e f ||| 0x8000000000000000 := by
  calc packBinary64 1 e f
      = (0 ||| 1 : U1) ++ ((e ++ f) ||| 0#63) := by rw [BitVec.or_zero]; rfl
    _ = packBinary64 0 e f ||| 0x8000000000000000 := BitVec.or_append.symm

theorem packBinary64_ne_zero {e : BitVec 11} (he : e ≠ 0) (sign : U1) (f : BitVec 52) :
    packBinary64 sign e f ≠ 0 := fun hzero => he <| by
  rw [← packBinary64_exponent sign e f, hzero]
  rfl

/-- What a normal pattern denotes, by its fields. -/
theorem binary64Value_pack {e : BitVec 11} (he : e ≠ 0) (sign : U1) (f : BitVec 52) :
    binary64Value (packBinary64 sign e f) =
      if sign.getLsbD 0 then -(((2 ^ 52 + f.toNat : Nat) : Rat) * powTwo (e.toNat - 1075))
      else ((2 ^ 52 + f.toNat : Nat) : Rat) * powTwo (e.toNat - 1075) := by
  simp only [binary64Value, if_neg (packBinary64_ne_zero he sign f), packBinary64_sign, packBinary64_exponent,
    packBinary64_fraction]

/-- The fields of a normal value: the biased exponent and the significand without its leading bit; a significand of
`2^53` carries into the exponent. -/
def binary64Exponent (q : Rat) : BitVec 11 :=
  BitVec.ofInt 11 (if binarySignificand q = 2 ^ 53 then binaryExponent q + 1024 else binaryExponent q + 1023)

def binary64Fraction (q : Rat) : BitVec 52 :=
  BitVec.ofInt 52 (if binarySignificand q = 2 ^ 53 then 0 else binarySignificand q - 2 ^ 52)

theorem binary64Fraction_toNat {q : Rat} (hq : 0 < q) :
    ((binary64Fraction q).toNat : Int) = if binarySignificand q = 2 ^ 53 then 0 else binarySignificand q - 2 ^ 52 := by
  obtain ⟨hlow, hhigh⟩ := binarySignificand_range hq
  rw [binary64Fraction, BitVec.toNat_ofInt]
  split <;> omega

theorem binary64Exponent_toNat {q : Rat} (hn : IsNormalBinary64 q) :
    ((binary64Exponent q).toNat : Int) =
      if binarySignificand q = 2 ^ 53 then binaryExponent q + 1024 else binaryExponent q + 1023 := by
  obtain ⟨hlow, hhigh⟩ := hn
  rw [binary64Exponent, BitVec.toNat_ofInt]
  split <;> omega

theorem binary64Exponent_ne_zero {q : Rat} (hn : IsNormalBinary64 q) : binary64Exponent q ≠ 0 := fun hzero => by
  have hvalue := binary64Exponent_toNat hn
  have hnumber : (binary64Exponent q).toNat = 0 := congrArg BitVec.toNat hzero
  obtain ⟨hlow, -⟩ := hn
  rw [hnumber] at hvalue
  split at hvalue <;> omega

theorem toNat_append_eq {m n : Nat} (x : BitVec m) (y : BitVec n) :
    (x ++ y).toNat = 2 ^ n * x.toNat + y.toNat := by
  rw [BitVec.toNat_append, ← Nat.shiftLeft_add_eq_or_of_lt y.isLt, Nat.shiftLeft_eq, Nat.mul_comm]

/-- The model's one number of 63 bits is the exponent field over the fraction field. -/
theorem patternNumber_eq_fields {q : Rat} (hq : 0 < q) (hn : IsNormalBinary64 q) :
    BitVec.ofInt 63 ((binaryExponent q + 1022) * 2 ^ 52 + binarySignificand q) =
      binary64Exponent q ++ binary64Fraction q := by
  have hexponent := binary64Exponent_toNat hn
  have hfraction := binary64Fraction_toNat hq
  obtain ⟨hlow, hhigh⟩ := binarySignificand_range hq
  obtain ⟨hnLow, hnHigh⟩ := hn
  apply BitVec.eq_of_toNat_eq
  rw [BitVec.toNat_ofInt, toNat_append_eq]
  split at hexponent <;> omega

theorem binary64Bits_of_pos {q : Rat} (hq : 0 < q) (hn : IsNormalBinary64 q) :
    binary64Bits q = packBinary64 0 (binary64Exponent q) (binary64Fraction q) := by
  simp only [binary64Bits, if_neg hq.ne', if_neg hq.not_gt, patternNumber_eq_fields hq hn, packBinary64]

theorem binary64Bits_neg {q : Rat} (hq : 0 < q) (hn : IsNormalBinary64 q) :
    binary64Bits (-q) = packBinary64 1 (binary64Exponent q) (binary64Fraction q) := by
  have hneg : -q < 0 := neg_neg_of_pos hq
  simp only [binary64Bits, if_neg hneg.ne, if_pos hneg, neg_neg, patternNumber_eq_fields hq hn, packBinary64]

/-- The fields of a normal value denote the rounded value, with or without the carry. -/
theorem fields_value {q : Rat} (hq : 0 < q) (hn : IsNormalBinary64 q) :
    ((2 ^ 52 + (binary64Fraction q).toNat : Nat) : Rat) * powTwo ((binary64Exponent q).toNat - 1075) =
      nearestBinary64 q := by
  have hexponent := binary64Exponent_toNat hn
  have hfraction := binary64Fraction_toNat hq
  rw [nearestBinary64_of_pos hq]
  by_cases hcarry : binarySignificand q = 2 ^ 53
  · rw [if_pos hcarry] at hexponent hfraction
    have hunit : powTwo (binaryExponent q + 1024 - 1075) = powTwo 1 * powTwo (binaryExponent q - 52) := by
      rw [← powTwo_add]
      congr 1
      ring
    have hzero : (binary64Fraction q).toNat = 0 := Int.natCast_eq_zero.mp hfraction
    have htwo : powTwo 1 = 2 := powTwo_natCast 1
    rw [hexponent, hcarry, hunit, hzero, htwo]
    push_cast
    ring
  · rw [if_neg hcarry] at hexponent hfraction
    have hsignificand : ((2 ^ 52 + (binary64Fraction q).toNat : Nat) : Int) = binarySignificand q := by
      push_cast
      omega
    have hunit : binaryExponent q + 1023 - 1075 = binaryExponent q - 52 := by ring
    rw [hexponent, hunit, ← hsignificand, Int.cast_natCast]

theorem binary64Value_bits_of_pos {q : Rat} (hq : 0 < q) (hn : IsNormalBinary64 q) :
    binary64Value (binary64Bits q) = nearestBinary64 q := by
  rw [binary64Bits_of_pos hq hn, binary64Value_pack (binary64Exponent_ne_zero hn), fields_value hq hn]
  rfl

theorem binary64Value_bits_neg {q : Rat} (hq : 0 < q) (hn : IsNormalBinary64 q) :
    binary64Value (binary64Bits (-q)) = nearestBinary64 (-q) := by
  rw [binary64Bits_neg hq hn, binary64Value_pack (binary64Exponent_ne_zero hn), fields_value hq hn,
    nearestBinary64_neg hq]
  rfl

/-! ### The coolant temperature and the statement -/

/-- A value between two powers of two in the normal range is a normal number. -/
theorem isNormal_of_bracket {q : Rat} {j k : Int} (hj : -1022 ≤ j) (hk : k ≤ 1023) (hlow : powTwo j ≤ q)
    (hhigh : q < powTwo k) : IsNormalBinary64 q := by
  obtain ⟨hbelow, habove⟩ := binaryExponent_bracket ((powTwo_pos j).trans_le hlow)
  have hlower := powTwo_lt_iff.mp (hlow.trans_lt habove)
  have hupper := powTwo_lt_iff.mp (hbelow.trans_lt hhigh)
  exact ⟨by omega, .inl (by omega)⟩

/-- A tenth up to 3276.8: the magnitudes of the nonzero coolant temperatures (R90). -/
theorem isNormal_tenth {n : Int} (hpos : 0 < n) (hle : n ≤ 32768) : IsNormalBinary64 ((n : Rat) / 10) := by
  have hlow : (1 : Rat) ≤ n := by exact_mod_cast hpos
  have hhigh : (n : Rat) ≤ 32768 := by exact_mod_cast hle
  refine isNormal_of_bracket (j := -4) (k := 12) (by decide) (by decide) ?_ ?_
  · rw [powTwo_eq_zpow]
    linarith
  · rw [powTwo_eq_zpow]
    linarith

theorem binary64Bits_zero : binary64Bits 0 = 0 := by
  simp only [binary64Bits, if_true]

theorem nearestBinary64_zero : nearestBinary64 0 = 0 := by
  simp only [nearestBinary64, if_true]

theorem binary64Value_zero : binary64Value 0 = 0 := by
  simp only [binary64Value, if_true]

theorem binary64Value_coolant {raw : Int} (hlow : -32768 ≤ raw) (hhigh : raw ≤ 32767) :
    binary64Value (binary64Bits ((raw : Rat) / 10)) = nearestBinary64 ((raw : Rat) / 10) := by
  obtain hneg | rfl | hpos := lt_trichotomy raw 0
  · have hmagnitude : (0 : Rat) < ((-raw : Int) : Rat) / 10 := by
      have h : (0 : Rat) < ((-raw : Int) : Rat) := Int.cast_pos.mpr (neg_pos.mpr hneg)
      linarith
    have hvalue : (raw : Rat) / 10 = -(((-raw : Int) : Rat) / 10) := by
      push_cast
      ring
    rw [hvalue]
    exact binary64Value_bits_neg hmagnitude (isNormal_tenth (by omega) (by omega))
  · rw [Int.cast_zero, zero_div, binary64Bits_zero, nearestBinary64_zero, binary64Value_zero]
  · have hvalue : (0 : Rat) < (raw : Rat) / 10 := div_pos (Int.cast_pos.mpr hpos) (by norm_num)
    exact binary64Value_bits_of_pos hvalue (isNormal_tenth hpos (by omega))

/-- Settles O38: the exponent brackets the value, so the significand has 53 bits and its rounding errs by half a unit; a
normal value's pattern is its three fields, which denote the rounded value. -/
theorem binary64RoundsToNearest : Obligations.Binary64RoundsToNearest := by
  refine ⟨fun q hq => ?_, fun q hq hn => ?_, ⟨binary64Bits_zero, nearestBinary64_zero, binary64Value_zero⟩,
    fun raw => binary64Value_coolant⟩
  · obtain ⟨hlow, hhigh⟩ := binaryExponent_bracket hq
    obtain ⟨hsLow, hsHigh⟩ := binarySignificand_range hq
    exact ⟨hlow, hhigh, hsLow, hsHigh, nearestBinary64_of_pos hq, nearestBinary64_neg hq, nearestBinary64_error hq⟩
  · have hexponent := binary64Exponent_toNat hn
    have hfraction := binary64Fraction_toNat hq
    refine ⟨?_, fun hfits => ?_, fun hcarry => ?_, binary64Value_bits_of_pos hq hn, ?_, binary64Value_bits_neg hq hn⟩
    · rw [binary64Bits_of_pos hq hn, packBinary64_sign]
      rfl
    · rw [if_neg hfits.ne] at hexponent hfraction
      rw [binary64Bits_of_pos hq hn, packBinary64_exponent, packBinary64_fraction]
      exact ⟨hexponent, hfraction⟩
    · rw [if_pos hcarry] at hexponent hfraction
      rw [binary64Bits_of_pos hq hn, packBinary64_exponent, packBinary64_fraction]
      exact ⟨hexponent, Int.natCast_eq_zero.mp hfraction⟩
    · rw [binary64Bits_neg hq hn, binary64Bits_of_pos hq hn, packBinary64_set_sign]

end Sys2Proof.Machine
end

section
/-!
PROOFS. R93 (spec/41_decoders.md): the fuel rounding has no ties. The exact value is an odd multiple of 5 over 510 away
from every half-integer, so at least 1/102; two binary64 roundings move it by far less, and the rounded percentage is
the same.
-/

namespace Sys2Proof.Machine

open Sys2Proof.Claims

/-- A rounding with a nearest half-integer at `k - 1/2` below and `k + 1/2` above gives `k`. -/
theorem roundNearest_eq_iff {x : Rat} {k : Int} : roundNearest x = k ↔ (k : Rat) - 1 / 2 ≤ x ∧ x < k + 1 / 2 := by
  rw [roundNearest, eq_comm, Int.le_antisymm_iff, Rat.le_floor_iff, ← Int.lt_add_one_iff, Rat.floor_lt_iff]
  push_cast
  constructor <;> rintro ⟨hlow, hhigh⟩ <;> constructor <;> linarith

/-- A value at least `gap` away from every half-integer rounds like every value less than `gap` away from it. -/
theorem roundNearest_eq_of_near {x y gap : Rat} (hgap : ∀ k : Int, gap ≤ |x - (k + 1 / 2)|) (hnear : |y - x| < gap) :
    roundNearest y = roundNearest x := by
  obtain ⟨hlow, hhigh⟩ := roundNearest_eq_iff.mp (rfl : roundNearest x = roundNearest x)
  obtain ⟨hbelow, habove⟩ := abs_lt.mp hnear
  have hgapHigh := hgap (roundNearest x)
  have hgapLow := hgap (roundNearest x - 1)
  rw [abs_of_neg (by linarith)] at hgapHigh
  rw [abs_of_nonneg (by push_cast; linarith)] at hgapLow
  push_cast at hgapLow
  exact roundNearest_eq_iff.mpr ⟨by linarith, by linarith⟩

/-- The distance to a half-integer is an odd multiple of 5, over 510. -/
theorem fuelRatio_gap (raw : Byte) (k : Int) : 1 / 102 ≤ |fuelRatio raw - (k + 1 / 2)| := by
  have hdistance : fuelRatio raw - (k + 1 / 2) = ((200 * (256 - raw.toNat) - 510 * k - 255 : Int) : Rat) / 510 := by
    rw [fuelRatio]
    push_cast
    ring
  have hodd : 5 ≤ |200 * (256 - (raw.toNat : Int)) - 510 * k - 255| := by
    rw [le_abs]
    omega
  have hodd' : (5 : Rat) ≤ |((200 * (256 - (raw.toNat : Int)) - 510 * k - 255 : Int) : Rat)| := by
    exact_mod_cast hodd
  rw [hdistance, abs_div, abs_of_pos (by norm_num : (0 : Rat) < 510)]
  linarith

/-- The clamp of R92 changes nothing. -/
theorem roundNearest_fuelRatio (raw : Byte) : roundNearest (fuelRatio raw) = fuelPercent raw := by
  rw [roundNearest, fuelRatio_add_half, fuelPercent_eq]
  exact Rat.floor_natCast_div_natCast _ _

/-- Half a unit in the last place of a value below 128 is at most `2^-47`. -/
theorem nearestBinary64_error_of_lt {q : Rat} (hq : 0 < q) (h : q < 128) : |nearestBinary64 q - q| ≤ 1 / 2 ^ 47 := by
  have hbound : (128 : Rat) = powTwo 7 := by
    rw [powTwo_eq_zpow]
    norm_num
  have hexponent := powTwo_lt_iff.mp ((binaryExponent_bracket hq).1.trans_lt (hbound ▸ h))
  calc |nearestBinary64 q - q|
      ≤ powTwo (binaryExponent q - 53) := nearestBinary64_error hq
    _ ≤ powTwo (-47) := powTwo_le_iff.mpr (by omega)
    _ = 1 / 2 ^ 47 := by
      rw [powTwo_eq_zpow]
      norm_num

theorem nearestBinary64_pos {q : Rat} (hq : 0 < q) : 0 < nearestBinary64 q := by
  have hsignificand : (0 : Int) < binarySignificand q := lt_of_lt_of_le (by norm_num) (binarySignificand_range hq).1
  rw [nearestBinary64_of_pos hq]
  exact mul_pos (Int.cast_pos.mpr hsignificand) (powTwo_pos _)

/-- Dividing and multiplying in binary64, in the order R92 writes, stays within 1/102 of the exact value. -/
theorem fuelBinary64_near (raw : Byte) :
    |nearestBinary64 (nearestBinary64 ((256 - (raw.toNat : Rat)) / 255) * 100) - fuelRatio raw| < 1 / 102 := by
  have hraw : (raw.toNat : Rat) ≤ 255 := by exact_mod_cast Nat.le_of_lt_succ raw.isLt
  have hrawNonneg : (0 : Rat) ≤ raw.toNat := Nat.cast_nonneg _
  rw [fuelRatio]
  generalize hx : (256 - (raw.toNat : Rat)) / 255 = x
  have hxPos : 0 < x := by linarith
  obtain ⟨hquotientLow, hquotientHigh⟩ := abs_le.mp (nearestBinary64_error_of_lt hxPos (by linarith))
  have hyPos := nearestBinary64_pos hxPos
  generalize nearestBinary64 x = y at *
  obtain ⟨hproductLow, hproductHigh⟩ := abs_le.mp
    (nearestBinary64_error_of_lt (q := y * 100) (by linarith) (by linarith))
  rw [abs_lt]
  constructor <;> linarith

/-- Settles O23: the gap of 1/102 around every half-integer leaves room for both binary64 roundings. -/
theorem fuelRoundingHasNoTies : Obligations.FuelRoundingHasNoTies := by
  intro raw
  have hround : roundNearest (fuelX raw) = fuelPercent raw := roundNearest_fuelRatio raw
  refine ⟨fuelRatio_gap raw, ?_, ?_⟩
  · have hle := fuelPercent_le raw
    rw [hround]
    omega
  · rw [← hround]
    exact roundNearest_eq_of_near (fuelRatio_gap raw) (fuelBinary64_near raw)

end Sys2Proof.Machine
end
